-- ==== Sys2Proof/Word.lean ====
section
/-! DEFINITION. Bytes and nibbles (00_scope R9: bit 0 is the least significant bit, every value unsigned). -/

namespace Sys2Proof

/-- A byte is 8 bits (00_scope R9). -/
abbrev Byte := BitVec 8

/-- A nibble is 4 bits (00_scope R9). -/
abbrev Nibble := BitVec 4

end Sys2Proof
end

