-- ==== Sys2Proof/Syntax.lean ====
section
/-! DEFINITION. The instructions: one constructor per row of spec/opcode_table.json, with the names of the link's
modes (00_scope R8) and of the wire commands (30_encoding R80). -/

namespace Sys2Proof

/-- The four logical modes of the link (00_scope R5, R8). -/
inductive Mode where
  | idle
  | reset
  | data
  | command
  deriving DecidableEq, Repr, Inhabited

/-- The controller commands of the wire encoding, in the order of the table of 30_encoding R80. -/
inductive WireName where
  | displayOff
  | displayOn
  | setClock
  | setMux
  | setOffset
  | setStartLine
  | masterConfig
  | setRemap
  | setCurrentFull
  | setGrayTable
  | setContrast
  | setRowPeriod
  | setPhaseLen
  | setPrechargeLevel
  | setPrechargeEnable
  | setVcomh
  | setVsl
  | normalDisplay
  | invertDisplay
  | gfxAccel
  | drawRect
  | setColAddr
  | setRowAddr
  deriving DecidableEq, Repr

/-- Every wire command name, in the table's order. -/
def WireName.all : List WireName :=
  [.displayOff, .displayOn, .setClock, .setMux, .setOffset, .setStartLine, .masterConfig, .setRemap,
   .setCurrentFull, .setGrayTable, .setContrast, .setRowPeriod, .setPhaseLen, .setPrechargeLevel, .setPrechargeEnable, .setVcomh,
   .setVsl, .normalDisplay, .invertDisplay, .gfxAccel, .drawRect, .setColAddr, .setRowAddr]

/-- How many operand bytes follow the opcode byte (30_encoding R80, column "operands"). -/
def WireName.operandCount : WireName → Nat
  | .displayOff => 0
  | .displayOn => 0
  | .setClock => 1
  | .setMux => 1
  | .setOffset => 1
  | .setStartLine => 1
  | .masterConfig => 1
  | .setRemap => 1
  | .setCurrentFull => 0
  | .setGrayTable => 8
  | .setContrast => 1
  | .setRowPeriod => 1
  | .setPhaseLen => 1
  | .setPrechargeLevel => 1
  | .setPrechargeEnable => 1
  | .setVcomh => 1
  | .setVsl => 1
  | .normalDisplay => 0
  | .invertDisplay => 0
  | .gfxAccel => 1
  | .drawRect => 5
  | .setColAddr => 2
  | .setRowAddr => 2

/-- One constructor per row of spec/opcode_table.json: the five operations and the reserved words of OPREQ
(30_encoding R71, R74), the pack port (10_state R31), and the 23 wire commands with their operand bytes
(30_encoding R80). -/
inductive Instr where
  | init
  | clear
  | seton (a : Bool)
  | setinv (a : Bool)
  | blit
  | reserved (w : Byte)
  | pack (b : Byte)
  | opcDisplayOff
  | opcDisplayOn
  | opcSetClock (v : Byte)
  | opcSetMux (v : Byte)
  | opcSetOffset (v : Byte)
  | opcSetStartLine (v : Byte)
  | opcMasterConfig (v : Byte)
  | opcSetRemap (v : Byte)
  | opcSetCurrentFull
  | opcSetGrayTable (d0 d1 d2 d3 d4 d5 d6 d7 : Byte)
  | opcSetContrast (v : Byte)
  | opcSetRowPeriod (v : Byte)
  | opcSetPhaseLen (v : Byte)
  | opcSetPrechargeLevel (v : Byte)
  | opcSetPrechargeEnable (v : Byte)
  | opcSetVcomh (v : Byte)
  | opcSetVsl (v : Byte)
  | opcNormalDisplay
  | opcInvertDisplay
  | opcGfxAccel (v : Byte)
  | opcDrawRect (d0 d1 d2 d3 d4 : Byte)
  | opcSetColAddr (lo hi : Byte)
  | opcSetRowAddr (lo hi : Byte)
  deriving DecidableEq, Repr

end Sys2Proof
end

