-- ==== Sys2Proof/Config.lean ====
section
/-! DEFINITION. What an implementation fixes (00_scope R6) and the free values: the OPEN parameters WIRE_OPC,
ERR_CODE_T and ERR_CODE_W are plain data, given to the machine in its state, so that a statement about every state is a
statement about every value of them. The other OPEN parameters and every free value are opaque constants. -/

namespace Sys2Proof

/-- WIRE_OPC, the opcode byte of each controller command (00_scope R6, 30_encoding R80). -/
structure WireOpc where
  displayOff : Byte
  displayOn : Byte
  setClock : Byte
  setMux : Byte
  setOffset : Byte
  setStartLine : Byte
  masterConfig : Byte
  setRemap : Byte
  setCurrentFull : Byte
  setGrayTable : Byte
  setContrast : Byte
  setRowPeriod : Byte
  setPhaseLen : Byte
  setPrechargeLevel : Byte
  setPrechargeEnable : Byte
  setVcomh : Byte
  setVsl : Byte
  normalDisplay : Byte
  invertDisplay : Byte
  gfxAccel : Byte
  drawRect : Byte
  setColAddr : Byte
  setRowAddr : Byte
  deriving DecidableEq, Repr

/-- The opcode byte WIRE_OPC gives a command name. -/
def WireOpc.code (o : WireOpc) : WireName → Byte
  | .displayOff => o.displayOff
  | .displayOn => o.displayOn
  | .setClock => o.setClock
  | .setMux => o.setMux
  | .setOffset => o.setOffset
  | .setStartLine => o.setStartLine
  | .masterConfig => o.masterConfig
  | .setRemap => o.setRemap
  | .setCurrentFull => o.setCurrentFull
  | .setGrayTable => o.setGrayTable
  | .setContrast => o.setContrast
  | .setRowPeriod => o.setRowPeriod
  | .setPhaseLen => o.setPhaseLen
  | .setPrechargeLevel => o.setPrechargeLevel
  | .setPrechargeEnable => o.setPrechargeEnable
  | .setVcomh => o.setVcomh
  | .setVsl => o.setVsl
  | .normalDisplay => o.normalDisplay
  | .invertDisplay => o.invertDisplay
  | .gfxAccel => o.gfxAccel
  | .drawRect => o.drawRect
  | .setColAddr => o.setColAddr
  | .setRowAddr => o.setRowAddr

/-- WIRE_OPC is injective over the commands of its table (30_encoding R80). -/
abbrev WireOpc.Injective (o : WireOpc) : Prop :=
  (WireName.all.map o.code).Nodup

/-- The default opcode bytes of 30_encoding R80, which the spec marks as general knowledge (93 item G1; the byte of
precharge-level is uncertain there). PRESUMED, unsafe: log entry 5. -/
def WireOpc.default : WireOpc where
  displayOff := 0xAE#8
  displayOn := 0xAF#8
  setClock := 0xB3#8
  setMux := 0xA8#8
  setOffset := 0xA2#8
  setStartLine := 0xA1#8
  masterConfig := 0xAD#8
  setRemap := 0xA0#8
  setCurrentFull := 0x86#8
  setGrayTable := 0xB8#8
  setContrast := 0x81#8
  setRowPeriod := 0xB2#8
  setPhaseLen := 0xB1#8
  setPrechargeLevel := 0xB4#8
  setPrechargeEnable := 0xB0#8
  setVcomh := 0xBE#8
  setVsl := 0xBF#8
  normalDisplay := 0xA4#8
  invertDisplay := 0xA7#8
  gfxAccel := 0x23#8
  drawRect := 0x24#8
  setColAddr := 0x15#8
  setRowAddr := 0x75#8

/-- An error code as a device returns it (40_mode R100, R101). FMTSEQ never looks inside one: it takes it from the
response, keeps it in the trace and places it in ERRCODE. -/
inductive ErrCode where
  /-- a number -/
  | num (n : Nat)
  /-- the k-th of a list of names -/
  | name (k : Nat)
  /-- two codes together, such as an error's kind and its cause (10_state R25) -/
  | pair (kind cause : ErrCode)
  deriving DecidableEq, Repr

/-- ERR_CODE_T, the type of the codes, as data (00_scope R6; log entry 6). Which codes a type has is
`Machine.codeHasType`. -/
inductive ErrCodeType where
  /-- every number -/
  | nat
  /-- the numbers of w bits -/
  | bits (w : Nat)
  /-- n names -/
  | names (n : Nat)
  /-- a code of each of two types -/
  | pair (kind cause : ErrCodeType)
  /-- a code of either of two types -/
  | either (a b : ErrCodeType)
  deriving DecidableEq, Repr

/-- The parameters the machine carries as data; no step writes them (00_scope R6). -/
structure Params where
  /-- WIRE_OPC -/
  wireOpc : WireOpc
  /-- ERR_CODE_T, the type of the devices' error codes -/
  errCodeT : ErrCodeType
  /-- ERR_CODE_W, the width of ERRCODE -/
  errCodeW : Nat
  deriving DecidableEq, Repr

/-- The parameters of the machine after reset: WIRE_OPC's defaults (PRESUMED, unsafe: log entry 5), numbers for
ERR_CODE_T and an ERR_CODE_W of 32 (DESIGN CHOICE, unsafe: log entry 6). -/
def Params.default : Params where
  wireOpc := WireOpc.default
  errCodeT := .nat
  errCodeW := 32

/-- T_RESET_HOLD, OPEN (00_scope R6, 70_reset R245): no value and no unit in any source (log entry 7). -/
opaque Config.tResetHold : Nat

/-- T_RESET_SETTLE, OPEN (00_scope R6, 70_reset R245): no value and no unit in any source (log entry 7). -/
opaque Config.tResetSettle : Nat

/-- PIN_MAP, OPEN (00_scope R6, R8): the levels of the controller's pins in each mode (log entry 8). -/
opaque Config.pinMap : Mode → List Bool

/-- Free value: the physical link mode where the spec leaves it unspecified, any of the four (10_state R26,
93 item I1; log entry 9). -/
opaque Config.freeMode : Nat → Mode

/-- Free value: byte k of WROW where its contents are unspecified (10_state R30, 93 item I4; log entry 10). -/
opaque Config.freeRowByte : Nat → Nat → Byte

/-- Free value: which of the possible outcomes happens, for a raced frame byte (70_reset R236; log entry 12) and for
a write outstanding at block reset (70_reset R232; log entry 13). -/
opaque Config.freeChoice : Nat → Nat

/-- Free value: how a code of that ERR_CODE_T is placed in that many bits of ERRCODE, where it is no number that fits
them (10_state R25; log entry 6). -/
opaque Config.errCodeBits : ErrCodeType → Nat → ErrCode → Nat

end Sys2Proof
end

