-- ==== Sys2Proof/Machine/State.lean ====
section
/-! DEFINITION. The machine's state as plain data, the reasons a step can stop, and the state after reset
(10_state R20 to R33, 20_memory R50, 70_reset R230). -/

namespace Sys2Proof.Machine

/-- Why the machine stops with a fault. -/
inductive Fault where
  /-- Raised by a sequencer phase whose position RUN(op, a, i, phase) is none that 10_state R27 and 42_display R150
  have: the step list has no step i, or step i has no such phase. No step reaches such a position (log entry 17).
  Safe: the machine stops where the spec has no state at all. -/
  | noSuchPosition
  deriving DecidableEq, Repr

/-- Why an instruction has no meaning. -/
inductive Refusal where
  /-- Raised by an arm of `exec` whose instruction has no meaning yet. Safe: nothing is said of it. No arm raises it. -/
  | notModelled (mnemonic : String)
  deriving DecidableEq, Repr

/-- A response of the mode-pin driver (40_mode R100): `Ok`, or `Err(c)` with an opaque code of ERR_CODE_T. -/
inductive ModeAnswer where
  | ok
  | err (c : ErrCode)
  deriving DecidableEq, Repr

/-- A response of the transport (40_mode R101): `Ok(n)`, n bytes written, or `Err(c)` with an opaque code of
ERR_CODE_T. -/
inductive TxAnswer where
  | ok (n : Nat)
  | err (c : ErrCode)
  deriving DecidableEq, Repr

/-- The two delay parameters (70_reset R245). -/
inductive DelayParam where
  | tResetHold
  | tResetSettle
  deriving DecidableEq, Repr

/-- An external event, with its response where it has one (00_scope R12). -/
inductive Event where
  | modeEnter (m : Mode) (r : ModeAnswer)
  | txWrite (bs : List Byte) (r : TxAnswer)
  | delay (p : DelayParam)
  deriving DecidableEq, Repr

/-- The five host operations (10_state R27). -/
inductive Op where
  | init
  | clear
  | seton
  | setinv
  | blit
  deriving DecidableEq, Repr

/-- The phases of a step (10_state R27). -/
inductive Phase where
  | enter
  | body
  | exit
  | delay
  | pack
  deriving DecidableEq, Repr

/-- The sequencer position `seq`: READY, or RUN(op, a, i, phase) (10_state R27). -/
inductive Position where
  | ready
  | run (op : Op) (a : Bool) (i : Nat) (ph : Phase)
  deriving DecidableEq, Repr

/-- A byte on the wire, with LINK_MODE as it read when the byte was sent: the mode tells command bytes from data
bytes (30_encoding R86). -/
structure WireByte where
  link : BitVec 3
  byte : Byte
  deriving DecidableEq, Repr

/-- What the host does before the block's next move (log entry 4). -/
inductive HostMove where
  /-- Nothing: the block moves. -/
  | letRun
  /-- The host offers one more word to OPREQ (10_state R22). -/
  | offer (w : Byte)
  /-- Block reset is asserted (70_reset R230, R232). -/
  | blockReset
  /-- The host drives PACK_IN (10_state R31). -/
  | packIn (b : Byte)
  /-- The host writes a byte of its frame memory (20_memory R50, 70_reset R236). -/
  | frameWrite (a : BitVec 10) (b : Byte)
  /-- The host writes STATUS, which is ignored (10_state R23). -/
  | writeStatus (v : Byte)
  deriving DecidableEq, Repr

/-- The state of FMTSEQ, with what it shares with the host and its two devices. -/
structure State where
  /-- WIRE_OPC, ERR_CODE_T and ERR_CODE_W; no step writes them (00_scope R6) -/
  params : Params
  /-- the sequencer position (10_state R27) -/
  seq : Position
  /-- STATUS: BUSY[7], RSV[6:4], RESULT[3:0] (10_state R23) -/
  status : BitVec 8
  /-- ERRCODE, ERR_CODE_W bits (10_state R25) -/
  errcode : Nat
  /-- LINK_MODE: VALID[2], MODE[1:0] (10_state R26) -/
  linkMode : BitVec 3
  /-- WROW[0..63] (10_state R30) -/
  wrow : List Byte
  /-- PACK_IN (10_state R31) -/
  packIn : Byte
  /-- PACK_OUT (10_state R31) -/
  packOut : BitVec 32
  /-- FRAME, in canonical form (20_memory R50, R51) -/
  frame : List Host.Cell
  /-- the frame bytes the host has overwritten since the BLIT in flight was accepted, newest first: address and old
  value (70_reset R236) -/
  raced : List Host.Cell
  /-- the physical link mode (10_state R33) -/
  link : Mode
  /-- the wire stream, first byte sent first (20_memory R50) -/
  wire : List WireByte
  /-- the trace, first event first (00_scope R12) -/
  trace : List Event
  /-- the words the host holds out at OPREQ, in the order it offers them (10_state R22, 30_encoding R75) -/
  offers : List Byte
  /-- the host's moves still to come; none left: the block moves (log entry 4) -/
  host : List HostMove
  /-- the mode-pin driver's answers still to come (40_mode R100; log entry 3) -/
  modeAnswers : List ModeAnswer
  /-- the transport's answers still to come (40_mode R101; log entry 3) -/
  txAnswers : List TxAnswer
  /-- how many free values have been drawn (log entry 24) -/
  draws : Nat
  deriving DecidableEq, Repr

/-- What a step, and every meaning, answers. -/
abbrev Result := Host.Outcome State Fault Refusal

/-- The machine right after block reset (70_reset R230), with no event so far and nothing from the host and the
devices yet. Where R230 gives no value: WROW (log entry 10), PACK_IN (log entry 15), the frame (log entry 11), the
physical link mode (log entry 9), the parameters (log entries 5 and 6), the counter (log entry 24). -/
def State.reset : State where
  params := Params.default
  seq := .ready
  status := 0x00#8
  errcode := 0
  linkMode := 0b000#3
  wrow := List.replicate 64 0x00#8
  packIn := 0x00#8
  packOut := 0x00000000#32
  frame := []
  raced := []
  link := .idle
  wire := []
  trace := []
  offers := []
  host := []
  modeAnswers := []
  txAnswers := []
  draws := 0

end Sys2Proof.Machine
end

