-- ==== Sys2Proof/Machine/Flags.lean ====
section
/-! DEFINITION. The fields of STATUS, ERRCODE and LINK_MODE (10_state R23 to R26) and the codes of the failures
(60_exceptions R200). FMTSEQ has no other flags (10_state R32). -/

namespace Sys2Proof.Machine

/-- STATUS as the concatenation of BUSY, the reserved bits 000, and RESULT (10_state R23). -/
def statusOf (busy : Bool) (result : BitVec 4) : BitVec 8 := BitVec.ofBool busy ++ 0#3 ++ result

/-- STATUS.BUSY = STATUS[7] (10_state R23). -/
def State.busy (s : State) : Bool := s.status.getLsbD 7

/-- STATUS.RESULT = STATUS[3:0] (10_state R23). -/
def State.result (s : State) : BitVec 4 := s.status.extractLsb' 0 4

/-- RESULT code NONE (10_state R23). -/
def resultNone : BitVec 4 := 0x0#4

/-- RESULT code OK (10_state R23). -/
def resultOk : BitVec 4 := 0x1#4

/-- Why an operation aborts (60_exceptions R200). -/
inductive Failure where
  | writeFailed
  | transport (c : ErrCode)
  | mode (c : ErrCode)
  | illegalOp
  deriving DecidableEq, Repr

/-- The RESULT code of a failure (10_state R23, 60_exceptions R200). -/
def Failure.result : Failure → BitVec 4
  | .writeFailed => 0x2#4
  | .transport _ => 0x3#4
  | .mode _ => 0x4#4
  | .illegalOp => 0x5#4

/-- Only a reserved word fails outside a bracket (60_exceptions R200, R205). -/
def Failure.inBracket : Failure → Bool
  | .writeFailed | .transport _ | .mode _ => true
  | .illegalOp => false

/-- Whether a code is of that ERR_CODE_T (00_scope R6; log entry 6). -/
def codeHasType : ErrCodeType → ErrCode → Bool
  | .nat, .num _ => true
  | .bits w, .num n => n < 2 ^ w
  | .names n, .name k => k < n
  | .pair a b, .pair x y => codeHasType a x && codeHasType b y
  | .either a b, c => codeHasType a c || codeHasType b c
  | .nat, .name _ | .nat, .pair _ _ | .bits _, .name _ | .bits _, .pair _ _ => false
  | .names _, .num _ | .names _, .pair _ _ | .pair _ _, .num _ | .pair _ _, .name _ => false

/-- How a code that is no number of ERR_CODE_W bits is placed in ERRCODE is OPEN with ERR_CODE_T and ERR_CODE_W: a free
value within the width (10_state R25; log entry 6). -/
def openCode (p : Params) (c : ErrCode) : Nat := Config.errCodeBits p.errCodeT p.errCodeW c % 2 ^ p.errCodeW

/-- A code placed in the ERR_CODE_W bits of ERRCODE: a number that fits unchanged (10_state R25), another as OPEN. -/
def placeCode (p : Params) : ErrCode → Nat
  | .num n => if n < 2 ^ p.errCodeW then n else openCode p (.num n)
  | .name k => openCode p (.name k)
  | .pair a b => openCode p (.pair a b)

/-- What ERRCODE takes at an abort: the failing response's code, or 0 (60_exceptions R205). -/
def Failure.errcode (p : Params) : Failure → Nat
  | .writeFailed => 0
  | .transport c => placeCode p c
  | .mode c => placeCode p c
  | .illegalOp => 0

/-- The 2-bit encoding of a mode (00_scope R8). -/
def encMode : Mode → BitVec 2
  | .idle => 0b00#2
  | .reset => 0b01#2
  | .data => 0b10#2
  | .command => 0b11#2

/-- LINK_MODE after `ModeEnter(m)` = Ok: VALID 1, MODE enc(m) (10_state R26). -/
def linkModeOf (m : Mode) : BitVec 3 := 1#1 ++ encMode m

/-- LINK_MODE with VALID 0 and its MODE bits kept (10_state R26). -/
def clearValid (l : BitVec 3) : BitVec 3 := 0#1 ++ l.extractLsb' 0 2

/-- LINK_MODE.VALID = LINK_MODE[2] (10_state R26). -/
def State.linkValid (s : State) : Bool := s.linkMode.getLsbD 2

end Sys2Proof.Machine
end

