-- ==== Sys2Proof/Machine/Memory.lean ====
section
/-! DEFINITION. The frame memory (20_memory R50, R51) as a list of cells in one canonical form. -/

namespace Sys2Proof.Machine

/-- FRAME_BYTES (00_scope R5). -/
def frameBytes : Nat := 1024

/-- What an unlisted frame address reads as: the spec gives the host's frame no contents at reset (70_reset R230).
DESIGN CHOICE, unsafe: log entry 11. -/
def unlistedByte : Byte := 0x00#8

/-- The byte at an address. A read changes nothing and always answers (20_memory R51, 60_exceptions R202). -/
def Memory.read : List Host.Cell → Nat → Byte
  | [], _ => unlistedByte
  | (k, v) :: m, a => if k = a then v else Memory.read m a

/-- The memory with one byte written, in canonical form. -/
def Memory.write : List Host.Cell → Nat → Byte → List Host.Cell
  | [], a, b => if b = unlistedByte then [] else [(a, b)]
  | (k, v) :: m, a, b =>
    if a < k then
      if b = unlistedByte then (k, v) :: m else (a, b) :: (k, v) :: m
    else if a = k then
      if b = unlistedByte then m else (a, b) :: m
    else (k, v) :: Memory.write m a b

/-- Every listed address lies at or above `lo` and below FRAME_BYTES, addresses strictly rise, and no entry equals
what an unlisted address reads as. -/
def Memory.wfFrom : Nat → List Host.Cell → Bool
  | _, [] => true
  | lo, (k, v) :: m => decide (lo ≤ k) && decide (k < frameBytes) && (v != unlistedByte) && Memory.wfFrom (k + 1) m

/-- The canonical form. -/
def Memory.wf (m : List Host.Cell) : Bool := Memory.wfFrom 0 m

end Sys2Proof.Machine
end

