-- ==== Sys2Proof/Machine/Operands.lean ====
section
/-! DEFINITION. The operands FMTSEQ reads: a byte of the frame (20_memory R51), with the race of 70_reset R236, and
a frame row (42_display R171). The operand bit A of a request word is `argField` of the decoder (30_encoding R72);
the operand bytes of a wire command are literals of the ROM (30_encoding R87). -/

namespace Sys2Proof.Machine

/-- The frame address of row r, byte column c: 16r + c, 10 bits (20_memory R51). -/
def frameAddr (r c : Nat) : BitVec 10 := BitVec.ofNat 10 (16 * r + c)

/-- The values the host has overwritten at a frame address since the BLIT in flight was accepted, newest first
(70_reset R236). -/
def State.oldBytes (s : State) (a : BitVec 10) : List Byte :=
  (s.raced.filter (fun c => c.1 == a.toNat)).map Prod.snd

/-- `FrameRead(a)` (20_memory R51). Where the host has written the byte during the BLIT in flight, the read is a race
and returns the new or an old value, draw `k` choosing which (70_reset R236; log entry 12). -/
def State.frameRead (s : State) (k : Nat) (a : BitVec 10) : Byte :=
  match s.oldBytes a with
  | [] => Memory.read s.frame a.toNat
  | b :: bs =>
    (Memory.read s.frame a.toNat :: b :: bs).getD (Config.freeChoice k % (bs.length + 2))
      (Memory.read s.frame a.toNat)

/-- The 16 bytes of frame row r, one FrameRead each (20_memory R61, 42_display R171). -/
def State.frameRow (s : State) (r : Nat) : List Byte :=
  (List.range 16).map (fun c => s.frameRead (s.draws + c) (frameAddr r c))

end Sys2Proof.Machine
end

