-- ==== Sys2Proof/Machine/Pack.lean ====
section
/-! DEFINITION. The pixel packer PACK (41_pixel_packer R130 to R136), a pure function. -/

namespace Sys2Proof.Machine

/-- `nib(x)`: 0xF for a set pixel, 0x0 for a clear one (41_pixel_packer R130, R134). -/
def nib (x : Bool) : Nibble := if x then 0xF#4 else 0x0#4

/-- The output byte `o_i`, built from bits 7 - 2i and 6 - 2i, the high nibble first (41_pixel_packer R130;
90_conflicts C3). -/
def packedByte (b : Byte) (i : Nat) : Byte := nib (b.getLsbD (7 - 2 * i)) ++ nib (b.getLsbD (6 - 2 * i))

/-- `packPixelByte(b) = [o0, o1, o2, o3]` (41_pixel_packer R130). -/
def packPixelByte (b : Byte) : List Byte := [packedByte b 0, packedByte b 1, packedByte b 2, packedByte b 3]

/-- `packRow(row)`: packPixelByte of each byte in order, concatenated (41_pixel_packer R131, R132). -/
def packRow (row : List Byte) : List Byte := row.flatMap packPixelByte

/-- `PACK_OUT = {o0, o1, o2, o3}`, o0 in [31:24] (10_state R31). -/
def packWord (b : Byte) : BitVec 32 := packedByte b 0 ++ packedByte b 1 ++ packedByte b 2 ++ packedByte b 3

end Sys2Proof.Machine
end

