-- ==== Sys2Proof/WellFormed.lean ====
section
/-! DEFINITION. Well-formed instructions: a RESERVED instruction carries a word of 30_encoding R74. Every other
constructor's operands are exactly the bits its encoding has. -/

namespace Sys2Proof

/-- `legal(w)` of 30_encoding R73. -/
def legalWord (w : Byte) : Bool :=
  w.extractLsb' 5 3 == 0#3 &&
    (((w.extractLsb' 0 4 == 0x1#4 || w.extractLsb' 0 4 == 0x2#4 || w.extractLsb' 0 4 == 0x5#4) &&
        w.getLsbD 4 == false) ||
      (w.extractLsb' 0 4 == 0x3#4 || w.extractLsb' 0 4 == 0x4#4))

/-- An instruction that some word stands for. -/
def Instr.wellFormed : Instr → Bool
  | .reserved w => !legalWord w
  | .init | .clear | .seton _ | .setinv _ | .blit | .pack _ => true
  | .opcDisplayOff => true
  | .opcDisplayOn => true
  | .opcSetClock _ => true
  | .opcSetMux _ => true
  | .opcSetOffset _ => true
  | .opcSetStartLine _ => true
  | .opcMasterConfig _ => true
  | .opcSetRemap _ => true
  | .opcSetCurrentFull => true
  | .opcSetGrayTable _ _ _ _ _ _ _ _ => true
  | .opcSetContrast _ => true
  | .opcSetRowPeriod _ => true
  | .opcSetPhaseLen _ => true
  | .opcSetPrechargeLevel _ => true
  | .opcSetPrechargeEnable _ => true
  | .opcSetVcomh _ => true
  | .opcSetVsl _ => true
  | .opcNormalDisplay => true
  | .opcInvertDisplay => true
  | .opcGfxAccel _ => true
  | .opcDrawRect _ _ _ _ _ => true
  | .opcSetColAddr _ _ => true
  | .opcSetRowAddr _ _ => true

end Sys2Proof
end

