-- ==== Sys2Proof/Decode.lean ====
section
/-! DEFINITION. The decoders and the encoder: OPREQ words (30_encoding R70 to R74), the pack port's byte (10_state
R31), and the wire commands of a Command-mode stream (30_encoding R80, R86). The assembler lines of 30_encoding R75
stand at the end. -/

namespace Sys2Proof

/-- OP = OPREQ[3:0] (10_state R21). -/
def opField (w : Byte) : Nibble := w.extractLsb' 0 4

/-- A = OPREQ[4], read as a boolean (30_encoding R72). -/
def argField (w : Byte) : Bool := w.getLsbD 4

/-- RSV = OPREQ[7:5] (10_state R21). -/
def rsvField (w : Byte) : BitVec 3 := w.extractLsb' 5 3

/-- The decoder of OPREQ, total on the 256 words (30_encoding R71, R73): every word that is no operation's is
RESERVED (R74). -/
def decode (w : Byte) : Instr :=
  if rsvField w = 0#3 then
    match (opField w).toNat, argField w with
    | 1, false => .init
    | 2, false => .clear
    | 3, a => .seton a
    | 4, a => .setinv a
    | 5, false => .blit
    | _, _ => .reserved w
  else .reserved w

/-- The pack port takes every byte (10_state R31). -/
def decodePackPort (b : Byte) : Instr := .pack b

/-- Why a Command-mode stream has no next command (30_encoding R86). -/
inductive DecodeError where
  /-- No byte is left. -/
  | endOfStream
  /-- The byte is no command's opcode under WIRE_OPC. -/
  | unknownOpcode (b : Byte)
  /-- The stream ends before the command's operand bytes do. -/
  | missingOperands (n : WireName)
  deriving DecidableEq, Repr

/-- The wire command of that name with exactly its operand bytes (30_encoding R80). -/
def WireName.build : WireName → List Byte → Option Instr
  | .displayOff, [] => some .opcDisplayOff
  | .displayOn, [] => some .opcDisplayOn
  | .setClock, [v] => some (.opcSetClock v)
  | .setMux, [v] => some (.opcSetMux v)
  | .setOffset, [v] => some (.opcSetOffset v)
  | .setStartLine, [v] => some (.opcSetStartLine v)
  | .masterConfig, [v] => some (.opcMasterConfig v)
  | .setRemap, [v] => some (.opcSetRemap v)
  | .setCurrentFull, [] => some .opcSetCurrentFull
  | .setGrayTable, [d0, d1, d2, d3, d4, d5, d6, d7] => some (.opcSetGrayTable d0 d1 d2 d3 d4 d5 d6 d7)
  | .setContrast, [v] => some (.opcSetContrast v)
  | .setRowPeriod, [v] => some (.opcSetRowPeriod v)
  | .setPhaseLen, [v] => some (.opcSetPhaseLen v)
  | .setPrechargeLevel, [v] => some (.opcSetPrechargeLevel v)
  | .setPrechargeEnable, [v] => some (.opcSetPrechargeEnable v)
  | .setVcomh, [v] => some (.opcSetVcomh v)
  | .setVsl, [v] => some (.opcSetVsl v)
  | .normalDisplay, [] => some .opcNormalDisplay
  | .invertDisplay, [] => some .opcInvertDisplay
  | .gfxAccel, [v] => some (.opcGfxAccel v)
  | .drawRect, [d0, d1, d2, d3, d4] => some (.opcDrawRect d0 d1 d2 d3 d4)
  | .setColAddr, [lo, hi] => some (.opcSetColAddr lo hi)
  | .setRowAddr, [lo, hi] => some (.opcSetRowAddr lo hi)
  | _, _ => none

/-- The command whose opcode byte this is. -/
def WireOpc.nameOf (o : WireOpc) (b : Byte) : Option WireName :=
  WireName.all.find? (fun n => o.code n == b)

/-- The next command of a Command-mode stream, and the bytes after it (30_encoding R86): an opcode byte, then that
command's operand count of R80. -/
def decodeWire (o : WireOpc) : List Byte → Except DecodeError (Instr × List Byte)
  | [] => .error .endOfStream
  | b :: rest =>
    match o.nameOf b with
    | none => .error (.unknownOpcode b)
    | some n =>
      match n.build (rest.take n.operandCount) with
      | some i => .ok (i, rest.drop n.operandCount)
      | none => .error (.missingOperands n)

/-- `splitCommands` with the number of commands bounded. -/
def splitWithin (o : WireOpc) : Nat → List Byte → Except DecodeError (List Instr)
  | _, [] => .ok []
  | 0, _ :: _ => .error .endOfStream
  | k + 1, b :: bs =>
    match decodeWire o (b :: bs) with
    | .error e => .error e
    | .ok (i, rest) =>
      match splitWithin o k rest with
      | .error e => .error e
      | .ok is => .ok (i :: is)

/-- A Command-mode stream split into its commands (30_encoding R86); each takes a byte at least, so the stream's
length bounds their number. -/
def splitCommands (o : WireOpc) (bs : List Byte) : Except DecodeError (List Instr) :=
  splitWithin o bs.length bs

/-- The words of an instruction: the OPREQ word (30_encoding R71), the byte driven on PACK_IN (10_state R31), or a
wire command's opcode byte and its operand bytes in order (30_encoding R80 to R85). -/
def encode (o : WireOpc) : Instr → List Byte
  | .init => [0x01#8]
  | .clear => [0x02#8]
  | .seton a => [if a then 0x13#8 else 0x03#8]
  | .setinv a => [if a then 0x14#8 else 0x04#8]
  | .blit => [0x05#8]
  | .reserved w => [w]
  | .pack b => [b]
  | .opcDisplayOff => [o.displayOff]
  | .opcDisplayOn => [o.displayOn]
  | .opcSetClock v => [o.setClock, v]
  | .opcSetMux v => [o.setMux, v]
  | .opcSetOffset v => [o.setOffset, v]
  | .opcSetStartLine v => [o.setStartLine, v]
  | .opcMasterConfig v => [o.masterConfig, v]
  | .opcSetRemap v => [o.setRemap, v]
  | .opcSetCurrentFull => [o.setCurrentFull]
  | .opcSetGrayTable d0 d1 d2 d3 d4 d5 d6 d7 => [o.setGrayTable, d0, d1, d2, d3, d4, d5, d6, d7]
  | .opcSetContrast v => [o.setContrast, v]
  | .opcSetRowPeriod v => [o.setRowPeriod, v]
  | .opcSetPhaseLen v => [o.setPhaseLen, v]
  | .opcSetPrechargeLevel v => [o.setPrechargeLevel, v]
  | .opcSetPrechargeEnable v => [o.setPrechargeEnable, v]
  | .opcSetVcomh v => [o.setVcomh, v]
  | .opcSetVsl v => [o.setVsl, v]
  | .opcNormalDisplay => [o.normalDisplay]
  | .opcInvertDisplay => [o.invertDisplay]
  | .opcGfxAccel v => [o.gfxAccel, v]
  | .opcDrawRect d0 d1 d2 d3 d4 => [o.drawRect, d0, d1, d2, d3, d4]
  | .opcSetColAddr lo hi => [o.setColAddr, lo, hi]
  | .opcSetRowAddr lo hi => [o.setRowAddr, lo, hi]

/-- Which of the three encodings an instruction belongs to (opcode_table.json, column "format"). -/
inductive Format where
  | opreq
  | packPort
  | wire
  deriving DecidableEq, Repr

/-- The format of an instruction's row. -/
def Instr.format : Instr → Format
  | .init | .clear | .seton _ | .setinv _ | .blit | .reserved _ => .opreq
  | .pack _ => .packPort
  | .opcDisplayOff => .wire
  | .opcDisplayOn => .wire
  | .opcSetClock _ => .wire
  | .opcSetMux _ => .wire
  | .opcSetOffset _ => .wire
  | .opcSetStartLine _ => .wire
  | .opcMasterConfig _ => .wire
  | .opcSetRemap _ => .wire
  | .opcSetCurrentFull => .wire
  | .opcSetGrayTable _ _ _ _ _ _ _ _ => .wire
  | .opcSetContrast _ => .wire
  | .opcSetRowPeriod _ => .wire
  | .opcSetPhaseLen _ => .wire
  | .opcSetPrechargeLevel _ => .wire
  | .opcSetPrechargeEnable _ => .wire
  | .opcSetVcomh _ => .wire
  | .opcSetVsl _ => .wire
  | .opcNormalDisplay => .wire
  | .opcInvertDisplay => .wire
  | .opcGfxAccel _ => .wire
  | .opcDrawRect _ _ _ _ _ => .wire
  | .opcSetColAddr _ _ => .wire
  | .opcSetRowAddr _ _ => .wire

/-- The instruction a decoder reads from an instruction's words, by the row's format. -/
def decodeAs (f : Format) (o : WireOpc) (bs : List Byte) : Option Instr :=
  match f, bs with
  | .opreq, [w] => some (decode w)
  | .packPort, [b] => some (decodePackPort b)
  | .wire, _ =>
    match decodeWire o bs with
    | .ok (i, []) => some i
    | _ => none
  | _, _ => none

/-- A request word of `nbits` bits, numbered as spec/opcode_table.json numbers them. Every request is one 8-bit word
(30_encoding R70); a word that needs more is none. -/
def decodeTableWord (nbits w : Nat) : Option Instr :=
  if nbits ≤ 8 then some (decode (BitVec.ofNat 8 (w % 2 ^ nbits))) else none

/-- A line of a request program (30_encoding R75), the four pseudo-instructions and `.word` among them. -/
inductive AsmLine where
  | init
  | clear
  | seton (a : Bool)
  | setinv (a : Bool)
  | blit
  | dispon
  | dispoff
  | invert
  | normal
  | word (w : Byte)
  deriving DecidableEq, Repr

/-- The word a line assembles to (30_encoding R71, R75). -/
def AsmLine.assemble : AsmLine → Byte
  | .init => 0x01#8
  | .clear => 0x02#8
  | .seton a => if a then 0x13#8 else 0x03#8
  | .setinv a => if a then 0x14#8 else 0x04#8
  | .blit => 0x05#8
  | .dispon => 0x13#8
  | .dispoff => 0x03#8
  | .invert => 0x14#8
  | .normal => 0x04#8
  | .word w => w

/-- A hexadecimal digit as R75's `.word 0xNN` writes it. -/
def hexDigit (n : Nat) : String :=
  ["0", "1", "2", "3", "4", "5", "6", "7", "8", "9", "A", "B", "C", "D", "E", "F"].getD n "0"

/-- The text of a line (30_encoding R75). -/
def AsmLine.text : AsmLine → String
  | .init => "INIT"
  | .clear => "CLEAR"
  | .seton a => if a then "SETON 1" else "SETON 0"
  | .setinv a => if a then "SETINV 1" else "SETINV 0"
  | .blit => "BLIT"
  | .dispon => "DISPON"
  | .dispoff => "DISPOFF"
  | .invert => "INVERT"
  | .normal => "NORMAL"
  | .word w => ".word 0x" ++ hexDigit (w.toNat / 16) ++ hexDigit (w.toNat % 16)

/-- A program is a list of lines, offered to OPREQ in order (30_encoding R75). -/
def assemble (p : List AsmLine) : List Byte := p.map AsmLine.assemble

end Sys2Proof
end

