-- ==== Sys2Proof/Machine/Rom.lean ====
section
/-! DEFINITION. The command ROM (10_state R29): the constant sequences of 30_encoding R81 to R85, as lists of wire
commands with their literal operands (R87), and the bytes they are under WIRE_OPC. -/

namespace Sys2Proof.Machine

/-- INIT_SEQ (30_encoding R81). -/
def initSeq : List Instr :=
  [.opcDisplayOff, .opcSetClock 0xF1#8, .opcSetMux 0x3F#8, .opcSetOffset 0x4C#8, .opcSetStartLine 0x00#8,
   .opcMasterConfig 0x02#8, .opcSetRemap 0x50#8, .opcSetCurrentFull,
   .opcSetGrayTable 0x01#8 0x11#8 0x22#8 0x32#8 0x43#8 0x54#8 0x65#8 0x76#8,
   .opcSetContrast 0x7F#8, .opcSetRowPeriod 0x51#8, .opcSetPhaseLen 0x55#8, .opcSetPrechargeLevel 0x02#8,
   .opcSetPrechargeEnable 0x28#8, .opcSetVcomh 0x1C#8, .opcSetVsl 0x0F#8, .opcNormalDisplay, .opcGfxAccel 0x01#8]

/-- CLEAR_SEQ (30_encoding R82). -/
def clearSeq : List Instr := [.opcDrawRect 0x00#8 0x00#8 0x3F#8 0x3F#8 0x00#8]

/-- BLIT_PRE (30_encoding R83). -/
def blitPre : List Instr := [.opcSetColAddr 0x00#8 0x3F#8, .opcSetRowAddr 0x00#8 0x3F#8]

/-- CMD_DISPLAY_ON and CMD_DISPLAY_OFF (30_encoding R84). -/
def cmdPower (on : Bool) : List Instr := if on then [.opcDisplayOn] else [.opcDisplayOff]

/-- CMD_INVERT and CMD_NORMAL (30_encoding R85). -/
def cmdInvert (inverted : Bool) : List Instr := if inverted then [.opcInvertDisplay] else [.opcNormalDisplay]

/-- The bytes of a list of commands, each opcode followed by its operands (30_encoding R86). -/
def commandBytes (o : WireOpc) (cmds : List Instr) : List Byte := cmds.flatMap (encode o)

end Sys2Proof.Machine
end

