-- ==== Sys2Proof/Machine/Ops.lean ====
section
/-! DEFINITION. The operations shared by the meanings: the registers' writes, the wire, the trace, and the abort
(60_exceptions R205), FMTSEQ's one exceptional flow. There is no return from it (60_exceptions R210). -/

namespace Sys2Proof.Machine

/-- The trace with one event more (00_scope R12). -/
def State.log (e : Event) (s : State) : State := { s with trace := s.trace ++ [e] }

/-- Bytes put on the wire in order, each with LINK_MODE as it reads (20_memory R50, 30_encoding R86). -/
def State.emit (bs : List Byte) (s : State) : State :=
  { s with wire := s.wire ++ bs.map (fun b => WireByte.mk s.linkMode b) }

/-- A wire command emitted: its opcode byte, then its operand bytes (30_encoding R80). -/
def State.emitCommand (i : Instr) (s : State) : State := s.emit (encode s.params.wireOpc i)

/-- WROW with unspecified contents: 64 free bytes (10_state R30; log entry 10). -/
def freeRow (k : Nat) : List Byte := (List.range 64).map (Config.freeRowByte k)

/-- The sequencer returns to READY (10_state R28). When the operation was BLIT, WROW's contents are unspecified from
then on (10_state R30), and no frame byte is raced any more (70_reset R236). -/
def State.leaveOperation (s : State) : State :=
  match s.seq with
  | .run .blit _ _ _ =>
    { s with seq := .ready, raced := [], wrow := freeRow s.draws, draws := s.draws + 1 }
  | _ => { s with seq := .ready }

/-- A bracket aborts: VALID 0, MODE kept, and the physical link in any of the four modes (10_state R26, 40_mode R115;
log entry 9). -/
def State.loseLink (s : State) : State :=
  { s with linkMode := clearValid s.linkMode, link := Config.freeMode s.draws, draws := s.draws + 1 }

/-- `abort R(info)` (60_exceptions R205): VALID 0 where the failure is inside a bracket, RESULT and ERRCODE as the
failure says, BUSY 0, seq READY; no event. -/
def State.abort (f : Failure) (s : State) : State :=
  let t := if f.inBracket then s.leaveOperation.loseLink else s.leaveOperation
  { t with status := statusOf false f.result, errcode := f.errcode s.params }

/-- The operation completes: RESULT OK, BUSY 0, seq READY (10_state R24, 42_display R152). -/
def State.complete (s : State) : State :=
  { s.leaveOperation with status := statusOf false resultOk }

/-- The verdict of the write check on a write of `len` bytes (40_mode R104): none is success. -/
def writeCheck (len : Nat) : TxAnswer → Option Failure
  | .err c => some (.transport c)
  | .ok n => if n < len then some .writeFailed else none

/-- `ModeEnter(m)` and what follows it (40_mode R100, R111, R113): once the driver answers, Ok makes LINK_MODE
`{1, enc(m)}` and goes on, Err(c) aborts with ERR_MODE. Until it answers, nothing changes (log entry 3). -/
def State.modeEnter (m : Mode) (onOk : State → State) (s : State) : State :=
  match s.modeAnswers with
  | [] => s
  | .ok :: rest =>
    onOk { s.log (.modeEnter m .ok) with modeAnswers := rest, linkMode := linkModeOf m, link := m }
  | .err c :: rest => State.abort (.mode c) { s.log (.modeEnter m (.err c)) with modeAnswers := rest }

/-- `WriteChecked(L)` and what follows it (40_mode R104, R112): one TxWrite of the whole list. Until the transport
answers, nothing changes (log entry 3). -/
def State.writeChecked (bs : List Byte) (onOk : State → State) (s : State) : State :=
  match s.txAnswers with
  | [] => s
  | r :: rest =>
    let t := { (s.emit bs).log (.txWrite bs r) with txAnswers := rest }
    match writeCheck bs.length r with
    | some f => t.abort f
    | none => onOk t

/-- `Delay(p)` and what follows it: an event that cannot fail and takes no time here (70_reset R245, 40_mode R114). -/
def State.delay (p : DelayParam) (onDone : State → State) (s : State) : State := onDone (s.log (.delay p))

/-- Block reset of an idle or a busy machine (70_reset R230 to R232), with `outstanding` the bytes of a TxWrite not
yet answered: no event; the operation's result is lost; WROW is unspecified; and when an operation was running, the
link is in any mode and the outstanding write may or may not have happened (log entry 13). The host's frame, its
offers and the devices are not the block's to reset. -/
def State.blockReset (outstanding : List Byte) (s : State) : State :=
  { s with
    seq := .ready
    status := statusOf false resultNone
    errcode := 0
    linkMode := 0b000#3
    wrow := freeRow s.draws
    raced := []
    wire := if s.seq ≠ .ready ∧ Config.freeChoice (s.draws + 2) % 2 = 1 then (s.emit outstanding).wire else s.wire
    link := if s.seq = .ready then s.link else Config.freeMode (s.draws + 1)
    draws := s.draws + 3 }

/-- Whether a BLIT is in flight. -/
def Position.isBlit : Position → Bool
  | .run .blit _ _ _ => true
  | _ => false

/-- The host writes a byte of its frame memory; during a BLIT the old value joins the race (70_reset R236). -/
def State.hostFrameWrite (a : BitVec 10) (b : Byte) (s : State) : State :=
  { s with
    frame := Memory.write s.frame a.toNat b
    raced := if s.seq.isBlit then (a.toNat, Memory.read s.frame a.toNat) :: s.raced else s.raced }

/-- PACK_IN driven: PACK_OUT follows it at once and nothing else changes (10_state R31). -/
def State.drivePackPort (b : Byte) (s : State) : State := { s with packIn := b, packOut := packWord b }

end Sys2Proof.Machine
end

