-- ==== Sys2Proof/Machine/Sequencer.lean ====
section
/-! DEFINITION. The command sequencer and the mode-pin FSM: the step lists (42_display R150), the phases of each step
kind (40_mode R110 to R114, 42_display R171), acceptance (42_display R151), and whose turn it is. -/

namespace Sys2Proof.Machine

/-- A step of an operation's list (40_mode R110). -/
inductive SeqStep where
  /-- `TX(m, L)`, L given by its commands -/
  | tx (m : Mode) (cmds : List Instr)
  /-- `HOLD(m, p)` -/
  | hold (m : Mode) (p : DelayParam)
  /-- `WAIT(p)` -/
  | wait (p : DelayParam)
  /-- `ROW(r)` -/
  | row (r : Nat)
  deriving DecidableEq, Repr

/-- `prog(op, a)` (42_display R150). -/
def prog : Op → Bool → List SeqStep
  | .init, _ => [.hold .reset .tResetHold, .wait .tResetSettle, .tx .command initSeq]
  | .clear, _ => [.tx .command clearSeq]
  | .seton, a => [.tx .command (cmdPower a)]
  | .setinv, a => [.tx .command (cmdInvert a)]
  | .blit, _ => .tx .command blitPre :: (List.range 64).map .row

/-- Only SETON and SETINV take an argument (30_encoding R72). -/
def Op.takesArg : Op → Bool
  | .seton | .setinv => true
  | .init | .clear | .blit => false

/-- The instruction an operation in flight runs (30_encoding R71). -/
def Op.instr : Op → Bool → Instr
  | .init, _ => .init
  | .clear, _ => .clear
  | .seton, a => .seton a
  | .setinv, a => .setinv a
  | .blit, _ => .blit

/-- The first phase of a step kind (42_display R151). -/
def SeqStep.firstPhase : SeqStep → Phase
  | .tx _ _ => .enter
  | .hold _ _ => .enter
  | .wait _ => .delay
  | .row _ => .pack

/-- The next phase of the same step (40_mode R111, R112). -/
def State.toPhase (ph : Phase) (s : State) : State :=
  match s.seq with
  | .run op a i _ => { s with seq := .run op a i ph }
  | .ready => s

/-- Step i is done: step i + 1 at its first phase, or the operation completes (10_state R28). -/
def State.stepDone (s : State) : State :=
  match s.seq with
  | .run op a i _ =>
    match (prog op a)[i + 1]? with
    | some st => { s with seq := .run op a (i + 1) st.firstPhase }
    | none => s.complete
  | .ready => s

/-- The PACK phase of `ROW(r)`: WROW = packRow of the frame row as it is read here; no event, no failure
(42_display R171). -/
def State.packPhase (r : Nat) (s : State) : State :=
  State.toPhase .enter { s with wrow := packRow (s.frameRow r), draws := s.draws + 16 }

/-- The mode a step's bracket enters (40_mode R110, 42_display R171); a WAIT has no bracket. -/
def SeqStep.mode? : SeqStep → Option Mode
  | .tx m _ => some m
  | .hold m _ => some m
  | .row _ => some .data
  | .wait _ => none

/-- The buffer a step's body writes (40_mode R112, 42_display R171); HOLD and WAIT write none. -/
def SeqStep.buffer (st : SeqStep) (s : State) : List Byte :=
  match st with
  | .tx _ cmds => commandBytes s.params.wireOpc cmds
  | .row _ => s.wrow
  | .hold _ _ => []
  | .wait _ => []

/-- One phase of one step (40_mode R111 to R114, 42_display R171). -/
def State.phaseOf (st : SeqStep) (ph : Phase) (s : State) : Result :=
  match st, ph with
  | .tx m _, .enter => .next (s.modeEnter m (State.toPhase .body))
  | .tx m cmds, .body => .next (s.writeChecked (SeqStep.buffer (.tx m cmds) s) (State.toPhase .exit))
  | .tx _ _, .exit => .next (s.modeEnter .idle State.stepDone)
  | .hold m _, .enter => .next (s.modeEnter m (State.toPhase .body))
  | .hold _ p, .body => .next (s.delay p (State.toPhase .exit))
  | .hold _ _, .exit => .next (s.modeEnter .idle State.stepDone)
  | .wait p, .delay => .next (s.delay p State.stepDone)
  | .row r, .pack => .next (s.packPhase r)
  | .row _, .enter => .next (s.modeEnter .data (State.toPhase .body))
  | .row r, .body => .next (s.writeChecked (SeqStep.buffer (.row r) s) (State.toPhase .exit))
  | .row _, .exit => .next (s.modeEnter .idle State.stepDone)
  | .tx _ _, .delay => .fault .noSuchPosition
  | .tx _ _, .pack => .fault .noSuchPosition
  | .hold _ _, .delay => .fault .noSuchPosition
  | .hold _ _, .pack => .fault .noSuchPosition
  | .wait _, .enter => .fault .noSuchPosition
  | .wait _, .body => .fault .noSuchPosition
  | .wait _, .exit => .fault .noSuchPosition
  | .wait _, .pack => .fault .noSuchPosition
  | .row _, .delay => .fault .noSuchPosition

/-- The phase at position RUN(op, a, i, ph). -/
def State.runPhase (op : Op) (a : Bool) (i : Nat) (ph : Phase) (s : State) : Result :=
  match (prog op a)[i]? with
  | some st => s.phaseOf st ph
  | none => .fault .noSuchPosition

/-- Acceptance of a legal word (10_state R24, 42_display R151): BUSY 1, RESULT NONE, ERRCODE 0, seq at the first phase
of step 0; no event. -/
def State.accept (op : Op) (a : Bool) (s : State) : State :=
  { s with
    status := statusOf true resultNone
    errcode := 0
    seq := .run op a 0 (((prog op a)[0]?.map SeqStep.firstPhase).getD .enter) }

/-- The whole life of an operation, a step at a time (log entry 2): accepted when the machine is READY, its next phase
while it is in flight, and held without any change while another operation is (10_state R22). -/
def State.runOp (op : Op) (a : Bool) (s : State) : Result :=
  match s.seq with
  | .ready => .next (s.accept op a)
  | .run op' a' i ph => if op'.instr a' = op.instr a then s.runPhase op' a' i ph else .next s

/-- The bytes of a TxWrite that may be outstanding at a block reset (70_reset R232). -/
def State.outstandingWrite (s : State) : List Byte :=
  match s.seq with
  | .run op a i .body =>
    match (prog op a)[i]? with
    | some st => st.buffer s
    | none => []
  | _ => []

/-- What happens next: an instruction runs in a state, or the state is all. -/
inductive Turn where
  | exec (i : Instr) (s : State)
  | done (s : State)
  deriving DecidableEq, Repr

/-- The block's move (10_state R22, R28): the operation in flight goes on; at READY the first word offered is taken
from OPREQ and decoded; with none offered the block waits (70_reset R230). -/
def State.blockTurn (s : State) : Turn :=
  match s.seq, s.offers with
  | .run op a _ _, _ => .exec (op.instr a) s
  | .ready, w :: ws => .exec (decode w) { s with offers := ws }
  | .ready, [] => .done s

/-- Whose move is next: the host's, as its list says, or the block's (log entry 4). -/
def State.turn (s : State) : Turn :=
  match s.host with
  | [] => s.blockTurn
  | .letRun :: hs => State.blockTurn { s with host := hs }
  | .offer w :: hs => .done { s with host := hs, offers := s.offers ++ [w] }
  | .blockReset :: hs => .done (State.blockReset s.outstandingWrite { s with host := hs })
  | .packIn b :: hs => .exec (.pack b) { s with host := hs }
  | .frameWrite a b :: hs => .done (State.hostFrameWrite a b { s with host := hs })
  | .writeStatus _ :: hs => .done { s with host := hs }

end Sys2Proof.Machine
end

