-- ==== Sys2Proof/Machine/Display.lean ====
section
/-! DEFINITION. The meanings of the five display operations (42_display R150 to R173): each is its whole life, from
acceptance through every phase of its step list to completion or abort, one step at a time. -/

namespace Sys2Proof.Machine

/-- INIT (42_display R155, R156): hold Reset, settle, then INIT_SEQ in Command mode. -/
def execInit (s : State) : Result := s.runOp .init false

/-- CLEAR (42_display R160): CLEAR_SEQ in Command mode. -/
def execClear (s : State) : Result := s.runOp .clear false

/-- SETON a (42_display R163): display on or off in Command mode. -/
def execSeton (a : Bool) (s : State) : Result := s.runOp .seton a

/-- SETINV a (42_display R166): invert or normal in Command mode. -/
def execSetinv (a : Bool) (s : State) : Result := s.runOp .setinv a

/-- BLIT (42_display R170 to R172): BLIT_PRE in Command mode, then the 64 packed rows in Data mode. -/
def execBlit (s : State) : Result := s.runOp .blit false

end Sys2Proof.Machine
end

