-- ==== Sys2Proof/Machine/Port.lean ====
section
/-! DEFINITION. The meanings of a reserved OPREQ word (30_encoding R74) and of the pack port (10_state R31). -/

namespace Sys2Proof.Machine

/-- A reserved word (30_encoding R74): accepted only when the machine is READY, it aborts outside any bracket with
ERR_ILLEGAL_OP (10_state R24, 60_exceptions R205); while an operation is in flight it is held without any change
(10_state R22). -/
def execReserved (_w : Byte) (s : State) : Result :=
  match s.seq with
  | .ready => .next (s.abort .illegalOp)
  | .run _ _ _ _ => .next s

/-- The pack port (10_state R31, 41_pixel_packer R130): at any time, BUSY or not. -/
def execPack (b : Byte) (s : State) : Result := .next (s.drivePackPort b)

end Sys2Proof.Machine
end

