-- ==== Sys2Proof/Machine/Wire.lean ====
section
/-! DEFINITION. The meanings of the 23 wire commands (30_encoding R80 to R86): what FMTSEQ does with one is to emit
it, its opcode byte first and then its operand bytes in order. What the controller does with it is outside the spec
(00_scope R4 d). A wire command is never a step of its own: the body of a TX step emits every command of its list in
one TxWrite (20_memory R55), through the same operation. -/

namespace Sys2Proof.Machine

/-- OPC_DISPLAY_OFF, no operand byte (30_encoding R80). -/
def execOpcDisplayOff (s : State) : Result :=
  .next (s.emitCommand .opcDisplayOff)

/-- OPC_DISPLAY_ON, no operand byte (30_encoding R80). -/
def execOpcDisplayOn (s : State) : Result :=
  .next (s.emitCommand .opcDisplayOn)

/-- OPC_SET_CLOCK, 1 operand byte (30_encoding R80). -/
def execOpcSetClock (v : Byte) (s : State) : Result :=
  .next (s.emitCommand (.opcSetClock v))

/-- OPC_SET_MUX, 1 operand byte (30_encoding R80). -/
def execOpcSetMux (v : Byte) (s : State) : Result :=
  .next (s.emitCommand (.opcSetMux v))

/-- OPC_SET_OFFSET, 1 operand byte (30_encoding R80). -/
def execOpcSetOffset (v : Byte) (s : State) : Result :=
  .next (s.emitCommand (.opcSetOffset v))

/-- OPC_SET_START_LINE, 1 operand byte (30_encoding R80). -/
def execOpcSetStartLine (v : Byte) (s : State) : Result :=
  .next (s.emitCommand (.opcSetStartLine v))

/-- OPC_MASTER_CONFIG, 1 operand byte (30_encoding R80). -/
def execOpcMasterConfig (v : Byte) (s : State) : Result :=
  .next (s.emitCommand (.opcMasterConfig v))

/-- OPC_SET_REMAP, 1 operand byte (30_encoding R80). -/
def execOpcSetRemap (v : Byte) (s : State) : Result :=
  .next (s.emitCommand (.opcSetRemap v))

/-- OPC_SET_CURRENT_FULL, no operand byte (30_encoding R80). -/
def execOpcSetCurrentFull (s : State) : Result :=
  .next (s.emitCommand .opcSetCurrentFull)

/-- OPC_SET_GRAY_TABLE, 8 operand bytes (30_encoding R80). -/
def execOpcSetGrayTable (d0 d1 d2 d3 d4 d5 d6 d7 : Byte) (s : State) : Result :=
  .next (s.emitCommand (.opcSetGrayTable d0 d1 d2 d3 d4 d5 d6 d7))

/-- OPC_SET_CONTRAST, 1 operand byte (30_encoding R80). -/
def execOpcSetContrast (v : Byte) (s : State) : Result :=
  .next (s.emitCommand (.opcSetContrast v))

/-- OPC_SET_ROW_PERIOD, 1 operand byte (30_encoding R80). -/
def execOpcSetRowPeriod (v : Byte) (s : State) : Result :=
  .next (s.emitCommand (.opcSetRowPeriod v))

/-- OPC_SET_PHASE_LEN, 1 operand byte (30_encoding R80). -/
def execOpcSetPhaseLen (v : Byte) (s : State) : Result :=
  .next (s.emitCommand (.opcSetPhaseLen v))

/-- OPC_SET_PRECHARGE_LEVEL, 1 operand byte (30_encoding R80). -/
def execOpcSetPrechargeLevel (v : Byte) (s : State) : Result :=
  .next (s.emitCommand (.opcSetPrechargeLevel v))

/-- OPC_SET_PRECHARGE_ENABLE, 1 operand byte (30_encoding R80). -/
def execOpcSetPrechargeEnable (v : Byte) (s : State) : Result :=
  .next (s.emitCommand (.opcSetPrechargeEnable v))

/-- OPC_SET_VCOMH, 1 operand byte (30_encoding R80). -/
def execOpcSetVcomh (v : Byte) (s : State) : Result :=
  .next (s.emitCommand (.opcSetVcomh v))

/-- OPC_SET_VSL, 1 operand byte (30_encoding R80). -/
def execOpcSetVsl (v : Byte) (s : State) : Result :=
  .next (s.emitCommand (.opcSetVsl v))

/-- OPC_NORMAL_DISPLAY, no operand byte (30_encoding R80). -/
def execOpcNormalDisplay (s : State) : Result :=
  .next (s.emitCommand .opcNormalDisplay)

/-- OPC_INVERT_DISPLAY, no operand byte (30_encoding R80). -/
def execOpcInvertDisplay (s : State) : Result :=
  .next (s.emitCommand .opcInvertDisplay)

/-- OPC_GFX_ACCEL, 1 operand byte (30_encoding R80). -/
def execOpcGfxAccel (v : Byte) (s : State) : Result :=
  .next (s.emitCommand (.opcGfxAccel v))

/-- OPC_DRAW_RECT, 5 operand bytes (30_encoding R80). -/
def execOpcDrawRect (d0 d1 d2 d3 d4 : Byte) (s : State) : Result :=
  .next (s.emitCommand (.opcDrawRect d0 d1 d2 d3 d4))

/-- OPC_SET_COL_ADDR, 2 operand bytes (30_encoding R80). -/
def execOpcSetColAddr (lo hi : Byte) (s : State) : Result :=
  .next (s.emitCommand (.opcSetColAddr lo hi))

/-- OPC_SET_ROW_ADDR, 2 operand bytes (30_encoding R80). -/
def execOpcSetRowAddr (lo hi : Byte) (s : State) : Result :=
  .next (s.emitCommand (.opcSetRowAddr lo hi))

end Sys2Proof.Machine
end

