-- ==== Sys2Proof/Machine/Dispatch.lean ====
section
/-! DEFINITION. One arm per constructor of Instr: each calls that instruction's meaning. -/

namespace Sys2Proof.Machine

def exec (i : Instr) (s : State) : Host.Outcome State Fault Refusal :=
  match i with
  | .init => Sys2Proof.Machine.execInit s
  | .clear => Sys2Proof.Machine.execClear s
  | .seton a => Sys2Proof.Machine.execSeton a s
  | .setinv a => Sys2Proof.Machine.execSetinv a s
  | .blit => Sys2Proof.Machine.execBlit s
  | .reserved w => Sys2Proof.Machine.execReserved w s
  | .pack b => Sys2Proof.Machine.execPack b s
  | .opcDisplayOff => Sys2Proof.Machine.execOpcDisplayOff s
  | .opcDisplayOn => Sys2Proof.Machine.execOpcDisplayOn s
  | .opcSetClock v => Sys2Proof.Machine.execOpcSetClock v s
  | .opcSetMux v => Sys2Proof.Machine.execOpcSetMux v s
  | .opcSetOffset v => Sys2Proof.Machine.execOpcSetOffset v s
  | .opcSetStartLine v => Sys2Proof.Machine.execOpcSetStartLine v s
  | .opcMasterConfig v => Sys2Proof.Machine.execOpcMasterConfig v s
  | .opcSetRemap v => Sys2Proof.Machine.execOpcSetRemap v s
  | .opcSetCurrentFull => Sys2Proof.Machine.execOpcSetCurrentFull s
  | .opcSetGrayTable d0 d1 d2 d3 d4 d5 d6 d7 => Sys2Proof.Machine.execOpcSetGrayTable d0 d1 d2 d3 d4 d5 d6 d7 s
  | .opcSetContrast v => Sys2Proof.Machine.execOpcSetContrast v s
  | .opcSetRowPeriod v => Sys2Proof.Machine.execOpcSetRowPeriod v s
  | .opcSetPhaseLen v => Sys2Proof.Machine.execOpcSetPhaseLen v s
  | .opcSetPrechargeLevel v => Sys2Proof.Machine.execOpcSetPrechargeLevel v s
  | .opcSetPrechargeEnable v => Sys2Proof.Machine.execOpcSetPrechargeEnable v s
  | .opcSetVcomh v => Sys2Proof.Machine.execOpcSetVcomh v s
  | .opcSetVsl v => Sys2Proof.Machine.execOpcSetVsl v s
  | .opcNormalDisplay => Sys2Proof.Machine.execOpcNormalDisplay s
  | .opcInvertDisplay => Sys2Proof.Machine.execOpcInvertDisplay s
  | .opcGfxAccel v => Sys2Proof.Machine.execOpcGfxAccel v s
  | .opcDrawRect d0 d1 d2 d3 d4 => Sys2Proof.Machine.execOpcDrawRect d0 d1 d2 d3 d4 s
  | .opcSetColAddr lo hi => Sys2Proof.Machine.execOpcSetColAddr lo hi s
  | .opcSetRowAddr lo hi => Sys2Proof.Machine.execOpcSetRowAddr lo hi s

end Sys2Proof.Machine
end

