-- ==== Sys2Proof/Machine/Step.lean ====
section
/-! DEFINITION. One step of the machine: the turn's instruction runs, or the turn is all. -/

namespace Sys2Proof.Machine

def step (s : State) : Host.Outcome State Fault Refusal :=
  match s.turn with
  | .exec i t => exec i t
  | .done t => .next t

/-- `s` with the word at the head of OPREQ and the block free to accept it at the very next step: READY, BUSY 0, and
no move of the host before it (log entry 4). -/
def State.withFetchWord (s : State) (nbits w : Nat) : State :=
  { s with
    offers := [BitVec.ofNat 8 (w % 2 ^ nbits)]
    host := []
    seq := .ready
    status := s.status &&& 0x7F#8 }

end Sys2Proof.Machine
end

