-- ==== Sys2Proof/Machine/Trace.lean ====
section
/-! DEFINITION. What a model observes of a run (00_scope R12), and the two views the spec takes of a trace: how many
of its events count as observable transitions (42_display R173), and how long it blocks at least (70_reset R245). -/

namespace Sys2Proof.Machine

/-- §8's "observable transitions" are the ModeEnter and TxWrite events (00_scope R12). -/
def Event.observable : Event → Bool
  | .modeEnter _ _ => true
  | .txWrite _ _ => true
  | .delay _ => false

/-- How many observable transitions a trace has (42_display R173, column "obs. events"). -/
def observableCount (tr : List Event) : Nat := tr.countP Event.observable

/-- The fixed time of a delay parameter (70_reset R245; log entry 7). -/
def DelayParam.time : DelayParam → Nat
  | .tResetHold => Config.tResetHold
  | .tResetSettle => Config.tResetSettle

/-- The least time an event blocks: only a Delay has one (70_reset R245). -/
def Event.leastTime : Event → Nat
  | .modeEnter _ _ => 0
  | .txWrite _ _ => 0
  | .delay p => p.time

/-- The least time a trace blocks (70_reset R245). -/
def blockingTime (tr : List Event) : Nat := (tr.map Event.leastTime).sum

/-- The bytes an event sends. -/
def Event.bytes : Event → List Byte
  | .modeEnter _ _ => []
  | .txWrite bs _ => bs
  | .delay _ => []

/-- The bytes of a trace's TxWrites, in order (42_display R173, column "total bytes"). -/
def traceBytes (tr : List Event) : List Byte := tr.flatMap Event.bytes

/-- Whether an event is answered with a failure (60_exceptions R200). -/
def Event.failed : Event → Bool
  | .modeEnter _ .ok => false
  | .modeEnter _ (.err _) => true
  | .txWrite bs r => (writeCheck bs.length r).isSome
  | .delay _ => false

/-- What a model observes: the trace, then STATUS, ERRCODE and LINK_MODE (00_scope R12). -/
structure Observation where
  trace : List Event
  status : BitVec 8
  errcode : Nat
  linkMode : BitVec 3
  deriving DecidableEq, Repr

/-- The observation of a state. -/
def State.observe (s : State) : Observation where
  trace := s.trace
  status := s.status
  errcode := s.errcode
  linkMode := s.linkMode

/-- The levels on the controller's pins: PIN_MAP of the physical link mode (00_scope R8; log entry 8). -/
def State.pinLevels (s : State) : List Bool := Config.pinMap s.link

end Sys2Proof.Machine
end

