-- ==== Sys2Proof/Safety.lean ====
section
/-! DEFINITION. What holds of every state a run can reach, in the terms the claims use, and runs of one instruction. -/

namespace Sys2Proof.Machine

/-- `n` steps of one instruction: what `step` does while that instruction is in flight and the host is quiet. -/
def execTimes : Nat → Instr → State → Result
  | 0, _, s => .next s
  | n + 1, i, s =>
    match exec i s with
    | .next t => execTimes n i t
    | .fault r => .fault r
    | .refused r => .refused r

/-- The block moves next, from `u`: the host has no move, or its move is to let the block run (log entry 4). -/
def BlockNext (s u : State) : Prop :=
  (s.host = [] ∧ u = s) ∨ ∃ hs, s.host = .letRun :: hs ∧ u = { s with host := hs }

/-- A list of instructions, each run once, in order. -/
def execAll : List Instr → State → Result
  | [], s => .next s
  | i :: is, s =>
    match exec i s with
    | .next t => execAll is t
    | .fault r => .fault r
    | .refused r => .refused r

/-- The phases a step kind has (40_mode R110 to R114, 42_display R171). -/
def SeqStep.phases : SeqStep → List Phase
  | .tx _ _ => [.enter, .body, .exit]
  | .hold _ _ => [.enter, .body, .exit]
  | .wait _ => [.delay]
  | .row _ => [.pack, .enter, .body, .exit]

/-- A position that 10_state R27 and 42_display R150 have: step i is in the list and has that phase, and the argument
of an operation that takes none is 0. -/
def Position.legal : Position → Bool
  | .ready => true
  | .run op a i ph =>
    (op.takesArg || !a) &&
      match (prog op a)[i]? with
      | some st => st.phases.contains ph
      | none => false

/-- The mode of the bracket a position is inside, its ENTER answered Ok and its EXIT not yet (40_mode R110). -/
def Position.insideMode : Position → Option Mode
  | .run op a i .body => (prog op a)[i]?.bind SeqStep.mode?
  | .run op a i .exit => (prog op a)[i]?.bind SeqStep.mode?
  | _ => none

/-- The mode whose bracket's body a position is at. -/
def Position.bodyMode : Position → Option Mode
  | .run op a i .body => (prog op a)[i]?.bind SeqStep.mode?
  | _ => none

/-- The mode whose bracket's exit a position is at. -/
def Position.exitMode : Position → Option Mode
  | .run op a i .exit => (prog op a)[i]?.bind SeqStep.mode?
  | _ => none

/-- Whether a position is past the PACK phase of a ROW step, where WROW holds that row (42_display R171). -/
def Position.rowPacked : Position → Bool
  | .run op a i ph =>
    match (prog op a)[i]? with
    | some (.row _) => ph != .pack
    | _ => false
  | .ready => false

/-- A wire row: packRow of 16 bytes (41_pixel_packer R131). -/
def IsWireRow (bs : List Byte) : Prop := ∃ row : List Byte, row.length = 16 ∧ bs = packRow row

/-- The command sequences of the ROM (10_state R29). -/
def commandSequences : List (List Instr) :=
  [initSeq, clearSeq, blitPre, cmdPower true, cmdPower false, cmdInvert true, cmdInvert false]

/-- A whole buffer as FMTSEQ sends it (20_memory R55, 30_encoding R86): a command sequence in Command mode, or a wire
row in Data mode. -/
def WholeBuffer (o : WireOpc) (link : BitVec 3) (bs : List Byte) : Prop :=
  (link = linkModeOf .command ∧ ∃ cmds ∈ commandSequences, bs = commandBytes o cmds) ∨
    (link = linkModeOf .data ∧ IsWireRow bs)

/-- The wire holds whole buffers, one after the other. -/
def WireInWholeBuffers (s : State) : Prop :=
  ∃ bufs : List (BitVec 3 × List Byte),
    s.wire = bufs.flatMap (fun b => b.2.map (WireByte.mk b.1)) ∧
      ∀ b ∈ bufs, WholeBuffer s.params.wireOpc b.1 b.2

/-- `seq` is a position of 10_state R27. -/
def SeqIsPosition (s : State) : Prop := s.seq.legal = true

/-- STATUS follows `seq` (10_state R23, R27): BUSY exactly when seq is not READY, the reserved bits 000, RESULT NONE
while BUSY and never a reserved code. -/
def StatusFollowsSeq (s : State) : Prop :=
  (s.busy = true ↔ s.seq ≠ .ready) ∧ s.status.extractLsb' 4 3 = 0#3 ∧
    (s.busy = true → s.result = resultNone) ∧ s.result.toNat ≤ 5

/-- ERRCODE is 0 unless RESULT is ERR_TRANSPORT or ERR_MODE (10_state R25), and lies within its width. -/
def ErrcodeFollowsResult (s : State) : Prop :=
  (s.result ≠ 0x3#4 ∧ s.result ≠ 0x4#4 → s.errcode = 0) ∧ s.errcode < 2 ^ s.params.errCodeW

/-- The code of an event's response, where it has one. -/
def Event.code? : Event → Option ErrCode
  | .modeEnter _ (.err c) => some c
  | .txWrite _ (.err c) => some c
  | .modeEnter _ .ok => none
  | .txWrite _ (.ok _) => none
  | .delay _ => none

/-- Every code the devices have still to return, and every one in the trace, is of ERR_CODE_T (40_mode R100, R101;
00_scope R6). -/
def CodesOfType (s : State) : Prop :=
  (∀ c, .err c ∈ s.modeAnswers → codeHasType s.params.errCodeT c = true) ∧
    (∀ c, .err c ∈ s.txAnswers → codeHasType s.params.errCodeT c = true) ∧
      ∀ e ∈ s.trace, ∀ c, e.code? = some c → codeHasType s.params.errCodeT c = true

/-- LINK_MODE tells the truth (10_state R26, 40_mode R116, R118): where VALID is 1, MODE is the physical mode; after
success the link is in Idle; after a failure in a bracket VALID is 0; inside a bracket the link is in its mode. -/
def LinkModeTrue (s : State) : Prop :=
  (s.linkValid = true → s.linkMode = linkModeOf s.link) ∧
    (s.result = resultOk → s.linkMode = 0b100#3) ∧
    (s.result = 0x2#4 ∨ s.result = 0x3#4 ∨ s.result = 0x4#4 → s.linkValid = false) ∧
    ∀ m, s.seq.insideMode = some m → s.linkMode = linkModeOf m

/-- WROW has 64 bytes (10_state R30), and from the end of a ROW step's PACK on they are a wire row (42_display R171). -/
def WrowHoldsRow (s : State) : Prop :=
  s.wrow.length = 64 ∧ (s.seq.rowPacked = true → IsWireRow s.wrow)

/-- Every TxWrite comes right after the ModeEnter, answered Ok, of its bracket, and writes a whole buffer of that mode
(70_reset R239, 20_memory R55, R60); a body that is next finds its ModeEnter last in the trace. -/
def WritesFollowTheirMode (s : State) : Prop :=
  (∀ pre bs r post, s.trace = pre ++ .txWrite bs r :: post →
    ∃ pre' m, pre = pre' ++ [.modeEnter m .ok] ∧ WholeBuffer s.params.wireOpc (linkModeOf m) bs) ∧
    ∀ m, s.seq.bodyMode = some m → ∃ pre, s.trace = pre ++ [.modeEnter m .ok]

/-- The event of a body that succeeded (40_mode R112): a TxWrite that passes the write check, or a Delay. -/
def Event.bodySucceeds : Event → Bool
  | .modeEnter _ _ => false
  | .txWrite bs r => (writeCheck bs.length r).isNone
  | .delay _ => true

/-- An EXIT that is next finds its bracket's ModeEnter, answered Ok, and then the event of its body, which succeeded,
last in the trace (40_mode R117); a body that is next finds its ModeEnter there. -/
def ExitsFollowBodies (s : State) : Prop :=
  (∀ m, s.seq.bodyMode = some m → ∃ pre, s.trace = pre ++ [.modeEnter m .ok]) ∧
    ∀ m, s.seq.exitMode = some m →
      ∃ pre e, s.trace = pre ++ [.modeEnter m .ok, e] ∧ e.bodySucceeds = true

/-- An event that opens an operation: every step list starts with ENTER of Reset or of Command (42_display R150). -/
def Event.opens : Event → Bool
  | .modeEnter .reset _ => true
  | .modeEnter .command _ => true
  | _ => false

/-- Whether a position is before an operation's first event. -/
def Position.beforeEvents : Position → Bool
  | .ready => true
  | .run _ _ i ph => i == 0 && ph == .enter

/-- After a failing response no event of that operation follows (60_exceptions R205, R206): the next event, if any,
opens a new operation. -/
def FailureEndsOperation (s : State) : Prop :=
  (∀ pre e f post, s.trace = pre ++ e :: f :: post → e.failed = true → f.opens = true) ∧
    ∀ pre e, s.trace = pre ++ [e] → e.failed = true → s.seq.beforeEvents = true

/-- Frame bytes are raced only while a BLIT is in flight (70_reset R236). -/
def RacedOnlyInBlit (s : State) : Prop := s.raced = [] ∨ s.seq.isBlit = true

/-- PACK_OUT is PACK_IN packed (10_state R31). -/
def PackOutFollowsPackIn (s : State) : Prop := s.packOut = packWord s.packIn

/-- The frame memory is in canonical form. -/
def FrameCanonical (s : State) : Prop := Memory.wf s.frame = true

/-- The phases a step still has, this one included. -/
def SeqStep.phasesFrom (st : SeqStep) (ph : Phase) : Nat := (st.phases.dropWhile (· != ph)).length

/-- How many phases an operation still has before it completes (70_reset R247). -/
def Position.phasesLeft : Position → Nat
  | .ready => 0
  | .run op a i ph =>
    (((prog op a)[i]?.map (fun st => st.phasesFrom ph)).getD 0) +
      (((prog op a).drop (i + 1)).map (fun st => st.phases.length)).sum

/-- What a position asks of the two devices has been answered: a ModeEnter by the mode-pin driver, a TxWrite by the
transport (70_reset R247). -/
def Answered (s : State) : Prop :=
  match s.seq with
  | .run op a i .body => (∀ m p, (prog op a)[i]? ≠ some (.hold m p)) → s.txAnswers ≠ []
  | .run _ _ _ .enter => s.modeAnswers ≠ []
  | .run _ _ _ .exit => s.modeAnswers ≠ []
  | _ => True

/-- What an operation depends on (42_display R153): its position, the parameters, the frame, the offers, the host's
moves, the answers and the free values; and, between a row's PACK and its end, that row. STATUS, ERRCODE, LINK_MODE, the
physical mode, the rest of WROW, the pack port, the wire and the trace may differ. The free values come in by the
counter, the model's own (log entries 22 and 24). -/
def SameInputs (s t : State) : Prop :=
  s.params = t.params ∧ s.seq = t.seq ∧ s.frame = t.frame ∧ s.raced = t.raced ∧ s.offers = t.offers ∧
    s.host = t.host ∧ s.modeAnswers = t.modeAnswers ∧ s.txAnswers = t.txAnswers ∧
    s.draws = t.draws ∧ (s.seq.rowPacked = true → s.wrow = t.wrow)

/-- `t` is `u` after an abort inside a bracket with that RESULT and ERRCODE (60_exceptions R205): VALID 0 with MODE
kept, BUSY 0, READY. The physical mode is free; what BLIT leaves in WROW is free and its races are over; everything
else is as in `u`. -/
def AbortedFrom (result : BitVec 4) (code : Nat) (u t : State) : Prop :=
  t = { u with
    seq := .ready
    status := 0#4 ++ result
    errcode := code
    linkMode := 0#1 ++ u.linkMode.extractLsb' 0 2
    link := t.link
    wrow := t.wrow
    raced := t.raced
    draws := t.draws } ∧
    (u.seq.isBlit = false → t.wrow = u.wrow ∧ t.raced = u.raced)

/-- `t` is `u` after its operation completed (42_display R152): RESULT OK, BUSY 0, READY. What BLIT leaves in WROW is
free and its races are over; everything else is as in `u`. -/
def CompletedFrom (u t : State) : Prop :=
  t = { u with
    seq := .ready
    status := 0x01#8
    wrow := t.wrow
    raced := t.raced
    draws := t.draws } ∧
    (u.seq.isBlit = false → t.wrow = u.wrow ∧ t.raced = u.raced ∧ t.draws = u.draws)

/-- The bytes of frame row r (20_memory R51). -/
def rowBytes (frame : List Host.Cell) (r : Nat) : List Byte :=
  (List.range 16).map (fun c => Memory.read frame (16 * r + c))

/-- The events of a write bracket that succeeds (40_mode R116 a). -/
def bracketEvents (m : Mode) (bs : List Byte) (n : Nat) : List Event :=
  [.modeEnter m .ok, .txWrite bs (.ok n), .modeEnter .idle .ok]

/-- A write of `len` bytes fails with that answer (40_mode R104): a count below `len` gives ERR_WRITE_FAILED and
ERRCODE 0, `Err(c)` gives ERR_TRANSPORT and c as ERRCODE takes it (log entry 6). -/
def WriteFails (p : Params) (len : Nat) (r : TxAnswer) (result : BitVec 4) (code : Nat) : Prop :=
  (∃ n, r = .ok n ∧ n < len ∧ result = 0x2#4 ∧ code = 0) ∨
    ∃ c, r = .err c ∧ result = 0x3#4 ∧ code = placeCode p c

/-- The events of a BLIT whose preamble and first k rows succeeded (42_display R170), with the counts the transport
answered: n for the preamble, `ns` for the rows. -/
def blitEvents (s : State) (n : Nat) (ns : List Nat) (k : Nat) : List Event :=
  bracketEvents .command (commandBytes s.params.wireOpc blitPre) n ++
    (List.range k).flatMap (fun r => bracketEvents .data (packRow (rowBytes s.frame r)) (ns.getD r 0))

/-- `t` is `s`, at READY, after a BLIT that aborted (42_display R172, 60_exceptions R205): RESULT and ERRCODE, BUSY 0,
VALID 0 with the MODE bits kept, these answers left, and these events. The physical mode, WROW and the counter end at
free values (log entries 9, 10, 24), and what the wire took is not said (log entry 14). -/
def BlitAborted (s t : State) (result : BitVec 4) (code : Nat) (mode : BitVec 2) (ms : List ModeAnswer)
    (ts : List TxAnswer) (evs : List Event) : Prop :=
  t = { s with
    status := 0#4 ++ result
    errcode := code
    linkMode := 0#1 ++ mode
    link := t.link
    wrow := t.wrow
    wire := t.wire
    draws := t.draws
    modeAnswers := ms
    txAnswers := ts
    trace := s.trace ++ evs }

/-- The bytes of a buffer on the wire with LINK_MODE as it reads in its bracket. -/
def onWire (m : Mode) (bs : List Byte) : List WireByte := bs.map (WireByte.mk (linkModeOf m))

end Sys2Proof.Machine
end

