-- ==== Sys2Proof/Certificates/Slice0/Obligations.lean ====
section
/-! DEFINITION. The statements for the provers. Each names the rule of spec/ it formalises. -/

open Sys2Proof Sys2Proof.Machine

/-! ### Encodings -/

/-- 30_encoding R71: the words of the five operations, and the three words that have A = 1 with an operation that takes
no argument (R74). -/
def Obligations.RequestWordsDecodeToOperations : Prop :=
  decode 0b00000001#8 = .init ∧ decode 0b00000010#8 = .clear ∧
    decode 0b00000011#8 = .seton false ∧ decode 0b00010011#8 = .seton true ∧
    decode 0b00000100#8 = .setinv false ∧ decode 0b00010100#8 = .setinv true ∧
    decode 0b00000101#8 = .blit ∧
    decode 0b00010001#8 = .reserved 0x11#8 ∧ decode 0b00010010#8 = .reserved 0x12#8 ∧
    decode 0b00010101#8 = .reserved 0x15#8

/-- 30_encoding R73: legal(w), the seven legal words, every other word reserved, and a legal word starts its operation
as 10_state R24 has it. -/
def Obligations.ExactlySevenWordsAreLegal : Prop :=
  ∀ w : Byte,
    (legalWord w = true ↔ w ∈ [0x01#8, 0x02#8, 0x03#8, 0x13#8, 0x04#8, 0x14#8, 0x05#8]) ∧
      (legalWord w = true ↔
        w.extractLsb' 5 3 = 0#3 ∧
          ((w.extractLsb' 0 4 ∈ [0x1#4, 0x2#4, 0x5#4] ∧ w.getLsbD 4 = false) ∨ w.extractLsb' 0 4 ∈ [0x3#4, 0x4#4])) ∧
      (legalWord w = false ↔ decode w = .reserved w) ∧
      ∀ s : State, legalWord w = true → s.seq = .ready →
        ∃ t, exec (decode w) s = .next t ∧ t.seq ≠ .ready ∧ t.status = 0x80#8 ∧ t.errcode = 0

/-- The OPREQ decoder loses no bit of the word. -/
def Obligations.RequestDecoderKeepsTheWord : Prop :=
  ∀ (o : WireOpc) (w : Byte), encode o (decode w) = [w] ∧ (decode w).wellFormed = true

/-- Words written out from the encodings of the three formats decode to the instructions they stand for. The wire
bytes use the default WIRE_OPC, which the model presumes (log entry 5). -/
def Obligations.SampleWordsDecode : Prop :=
  decodeTableWord 8 0b00010011 = some (.seton true) ∧ decodeTableWord 8 0b00000101 = some .blit ∧
    decodeAs .packPort WireOpc.default [0x69#8] = some (.pack 0x69#8) ∧
    decodeAs .wire WireOpc.default [0xB3#8, 0xF1#8] = some (.opcSetClock 0xF1#8) ∧
    decodeAs .wire WireOpc.default [0x15#8, 0x00#8, 0x3F#8] = some (.opcSetColAddr 0x00#8 0x3F#8) ∧
    decodeAs .wire WireOpc.default [0xA7#8] = some .opcInvertDisplay

/-- Every well-formed instruction of the three formats decodes back from its words, whatever injective map WIRE_OPC
is. -/
def Obligations.DecodeOfEncodeIsTheInstruction : Prop :=
  ∀ (o : WireOpc) (i : Instr), o.Injective → i.wellFormed = true → decodeAs i.format o (encode o i) = some i

/-- 30_encoding R86: a decoder of the Command-mode stream splits it into exactly the commands that were sent, whatever
injective map WIRE_OPC is. -/
def Obligations.CommandStreamSplitsIntoItsCommands : Prop :=
  ∀ (o : WireOpc) (cmds : List Instr), o.Injective → (∀ i ∈ cmds, i.format = .wire) →
    splitCommands o (commandBytes o cmds) = .ok cmds

/-- What the wire decoder reads is what the encoder writes: the bytes it takes are the encoding of the command it
answers. -/
def Obligations.WireDecoderReadsTheEncoding : Prop :=
  ∀ (o : WireOpc) (bs rest : List Byte) (i : Instr), decodeWire o bs = .ok (i, rest) →
    i.format = .wire ∧ bs = encode o i ++ rest

/-- The lines of 30_encoding R75 and the words they assemble to. -/
def Obligations.AssemblerLinesAreRequestWords : Prop :=
  assemble [.init, .clear, .seton false, .seton true, .setinv false, .setinv true, .blit,
      .dispon, .dispoff, .invert, .normal] =
    [0x01#8, 0x02#8, 0x03#8, 0x13#8, 0x04#8, 0x14#8, 0x05#8, 0x13#8, 0x03#8, 0x14#8, 0x04#8] ∧
    ∀ w : Byte, AsmLine.assemble (.word w) = w

/-- The bytes of INIT_SEQ, CLEAR_SEQ and BLIT_PRE for every WIRE_OPC (30_encoding R81 to R83). -/
def Obligations.CommandRomBytes : Prop :=
  ∀ o : WireOpc,
    commandBytes o initSeq =
      [o.displayOff, o.setClock, 0xF1#8, o.setMux, 0x3F#8, o.setOffset, 0x4C#8, o.setStartLine, 0x00#8,
        o.masterConfig, 0x02#8, o.setRemap, 0x50#8, o.setCurrentFull, o.setGrayTable, 0x01#8, 0x11#8, 0x22#8, 0x32#8,
        0x43#8, 0x54#8, 0x65#8, 0x76#8, o.setContrast, 0x7F#8, o.setRowPeriod, 0x51#8, o.setPhaseLen, 0x55#8,
        o.setPrechargeLevel, 0x02#8, o.setPrechargeEnable, 0x28#8, o.setVcomh, 0x1C#8, o.setVsl, 0x0F#8,
        o.normalDisplay, o.gfxAccel, 0x01#8] ∧
      (commandBytes o initSeq).length = 40 ∧ .opcDisplayOn ∉ initSeq ∧
      commandBytes o clearSeq = [o.drawRect, 0x00#8, 0x00#8, 0x3F#8, 0x3F#8, 0x00#8] ∧
      commandBytes o blitPre = [o.setColAddr, 0x00#8, 0x3F#8, o.setRowAddr, 0x00#8, 0x3F#8]

/-- 30_encoding R84 and R85: the one-byte commands, two of which are commands of INIT_SEQ. -/
def Obligations.SingleCommandBytes : Prop :=
  ∀ o : WireOpc,
    commandBytes o (cmdPower true) = [o.displayOn] ∧ commandBytes o (cmdPower false) = [o.displayOff] ∧
      commandBytes o (cmdInvert true) = [o.invertDisplay] ∧ commandBytes o (cmdInvert false) = [o.normalDisplay] ∧
      (commandBytes o initSeq)[0]? = some o.displayOff ∧ (commandBytes o initSeq)[37]? = some o.normalDisplay

/-! ### The packer -/

/-- 41_pixel_packer R130: four bytes, the pairs 7,6 / 5,4 / 3,2 / 1,0, high nibble first. -/
def Obligations.PackPixelByteByPairs : Prop :=
  ∀ b : Byte,
    packPixelByte b =
      [(if b.getLsbD 7 then 0xF#4 else 0x0#4) ++ (if b.getLsbD 6 then 0xF#4 else 0x0#4),
        (if b.getLsbD 5 then 0xF#4 else 0x0#4) ++ (if b.getLsbD 4 then 0xF#4 else 0x0#4),
        (if b.getLsbD 3 then 0xF#4 else 0x0#4) ++ (if b.getLsbD 2 then 0xF#4 else 0x0#4),
        (if b.getLsbD 1 then 0xF#4 else 0x0#4) ++ (if b.getLsbD 0 then 0xF#4 else 0x0#4)] ∧
      packPixelByte 0xA5#8 = [0xF0#8, 0xF0#8, 0x0F#8, 0x0F#8] ∧
      packPixelByte 0x00#8 = [0x00#8, 0x00#8, 0x00#8, 0x00#8] ∧
      packPixelByte 0xFF#8 = [0xFF#8, 0xFF#8, 0xFF#8, 0xFF#8]

/-- 41_pixel_packer R135: output lane k of PACK_OUT copies input bit k four times, and with PACK_OUT = o0, o1, o2, o3
this is the function of R130. -/
def Obligations.PackOutCopiesEachBitFourTimes : Prop :=
  (∀ (b : Byte) (k j : Nat), k < 8 → j < 4 → (packWord b).getLsbD (4 * k + j) = b.getLsbD k) ∧
    ∀ b o0 o1 o2 o3 : Byte, packPixelByte b = [o0, o1, o2, o3] → packWord b = o0 ++ o1 ++ o2 ++ o3

/-- 41_pixel_packer R136: the LUT form, by bit pairs or by nibbles, and the shift-expand form compute the same
function. -/
def Obligations.LutAndShiftExpandAgree : Prop :=
  (∀ b : Byte,
    packPixelByte b =
      (packPixelByte (b.extractLsb' 4 4 ++ 0#4)).take 2 ++ (packPixelByte (b.extractLsb' 0 4 ++ 0#4)).take 2) ∧
  ∀ (b : Byte) (i : Nat), i < 4 →
    (packPixelByte b)[i]? = [0x00#8, 0x0F#8, 0xF0#8, 0xFF#8][(b.extractLsb' (6 - 2 * i) 2).toNat]? ∧
      (packPixelByte b)[i]? =
        some ((if b.getLsbD (7 - 2 * i) then 0xF0#8 else 0x00#8) ||| (if b.getLsbD (6 - 2 * i) then 0x0F#8 else 0x00#8))

/-- 41_pixel_packer R132: the length law, for a row of any length. -/
def Obligations.PackRowIsFourTimesAsLong : Prop :=
  ∀ row : List Byte, (packRow row).length = 4 * row.length

/-- 41_pixel_packer R133: pixel x of a row lands in byte x div 2 of the wire row, in the high nibble if x is even and
the low nibble if x is odd, 0xF if set and 0x0 if clear. -/
def Obligations.EveryPixelLandsInItsNibble : Prop :=
  ∀ (row : List Byte) (x : Nat), row.length = 16 → x < 128 →
    ((packRow row).getD (x / 2) 0x00#8).extractLsb' (if x % 2 = 0 then 4 else 0) 4 =
      if (row.getD (x / 8) 0x00#8).getLsbD (7 - x % 8) then 0xF#4 else 0x0#4

/-- 10_state R31: the pack port takes every byte in every state, BUSY or not, and changes nothing but PACK_IN and
PACK_OUT = o0, o1, o2, o3 with o0 in [31:24]. -/
def Obligations.PackPortAnswersInEveryState : Prop :=
  ∀ (b o0 o1 o2 o3 : Byte) (s : State), packPixelByte b = [o0, o1, o2, o3] →
    exec (.pack b) s = .next { s with packIn := b, packOut := o0 ++ o1 ++ o2 ++ o3 }

/-! ### Reset -/

/-- 70_reset R230: the values block reset gives, in the state after reset, which waits for a word at OPREQ. -/
def Obligations.ResetLeavesTheStatedValues : Prop :=
  State.reset.seq = .ready ∧ State.reset.busy = false ∧ State.reset.result = 0x0#4 ∧
    State.reset.status.extractLsb' 4 3 = 0#3 ∧ State.reset.errcode = 0 ∧ State.reset.linkValid = false ∧
    State.reset.linkMode.extractLsb' 0 2 = 0b00#2 ∧ step State.reset = .next State.reset

/-- 70_reset R231: block reset emits no event, whenever it is asserted. It ends the operation at once and leaves the
values of R230, RESULT NONE (R232). -/
def Obligations.BlockResetEndsTheOperationWithoutEvent : Prop :=
  ∀ (s : State) (hs : List HostMove), s.host = .blockReset :: hs →
    ∃ t, step s = .next t ∧ t.host = hs ∧ t.trace = s.trace ∧ t.seq = .ready ∧ t.status = 0x00#8 ∧ t.errcode = 0 ∧
      t.linkMode = 0b000#3

/-- The model's choice (log entry 13): block reset leaves the parameters, the frame, the offers, the pack port and the
devices' answers alone; the physical mode of an idle machine too; and the wire is as before, or with the one write
that was outstanding. -/
def Obligations.BlockResetLeavesTheRestAlone : Prop :=
  ∀ (s t : State) (hs : List HostMove), s.host = .blockReset :: hs → step s = .next t →
    t.params = s.params ∧ t.frame = s.frame ∧ t.offers = s.offers ∧ t.packIn = s.packIn ∧ t.packOut = s.packOut ∧
      t.modeAnswers = s.modeAnswers ∧ t.txAnswers = s.txAnswers ∧ t.raced = [] ∧
      (s.seq = .ready → t.link = s.link ∧ t.wire = s.wire) ∧
      (t.wire = s.wire ∨ t.wire = s.wire ++ s.outstandingWrite.map (WireByte.mk s.linkMode))

/-- LINK_MODE's values in each mode, by the encoding of 00_scope R8 and the layout of 10_state R26, and with VALID
cleared. -/
def Obligations.LinkModeEncodings : Prop :=
  linkModeOf .idle = 0b100#3 ∧ linkModeOf .reset = 0b101#3 ∧ linkModeOf .data = 0b110#3 ∧
    linkModeOf .command = 0b111#3 ∧
    ∀ m, clearValid (linkModeOf m) = 0#1 ++ encMode m ∧ (linkModeOf m).extractLsb' 0 2 = encMode m

/-- 20_memory R51, R52: the byte of row r, column c is at address 16r + c, which is r's six bits and then c's four. -/
def Obligations.FrameAddressesAreRowThenColumn : Prop :=
  ∀ r c : Nat, r < 64 → c < 16 →
    (frameAddr r c).toNat = 16 * r + c ∧ frameAddr r c = BitVec.ofNat 6 r ++ BitVec.ofNat 4 c

/-! ### Acceptance -/

/-- 42_display R150: the step list of each operation, fixed by (op, a). -/
def Obligations.StepListsOfTheOperations : Prop :=
  ∀ a : Bool,
    prog .init a = [.hold .reset .tResetHold, .wait .tResetSettle, .tx .command initSeq] ∧
      prog .clear a = [.tx .command clearSeq] ∧
      prog .seton a = [.tx .command (if a then [.opcDisplayOn] else [.opcDisplayOff])] ∧
      prog .setinv a = [.tx .command (if a then [.opcInvertDisplay] else [.opcNormalDisplay])] ∧
      (prog .blit a).length = 65 ∧ (prog .blit a)[0]? = some (.tx .command blitPre) ∧
      ∀ r, r < 64 → (prog .blit a)[1 + r]? = some (.row r)

/-- 42_display R151: each of the five operations, as its word decodes, is accepted at READY, in one step with no event:
BUSY 1, RESULT NONE, ERRCODE 0, and seq at step 0's first phase, which each step kind fixes. -/
def Obligations.OperationsAreAcceptedAtReady : Prop :=
  (decode 0x01#8 = .init ∧ decode 0x02#8 = .clear ∧ decode 0x05#8 = .blit ∧
      ∀ a : Bool, decode (if a then 0x13#8 else 0x03#8) = .seton a ∧ decode (if a then 0x14#8 else 0x04#8) = .setinv a) ∧
  (∀ s : State, s.seq = .ready →
    exec .init s = .next { s with status := 0x80#8, errcode := 0, seq := .run .init false 0 .enter } ∧
      exec .clear s = .next { s with status := 0x80#8, errcode := 0, seq := .run .clear false 0 .enter } ∧
      (∀ a, exec (.seton a) s = .next { s with status := 0x80#8, errcode := 0, seq := .run .seton a 0 .enter }) ∧
      (∀ a, exec (.setinv a) s = .next { s with status := 0x80#8, errcode := 0, seq := .run .setinv a 0 .enter }) ∧
      exec .blit s = .next { s with status := 0x80#8, errcode := 0, seq := .run .blit false 0 .enter }) ∧
    (∀ m cmds, SeqStep.firstPhase (.tx m cmds) = .enter) ∧ (∀ m p, SeqStep.firstPhase (.hold m p) = .enter) ∧
    (∀ p, SeqStep.firstPhase (.wait p) = .delay) ∧ ∀ r, SeqStep.firstPhase (.row r) = .pack

/-- 30_encoding R74: a reserved word, once accepted, sets RESULT to ERR_ILLEGAL_OP and ERRCODE to 0 and changes nothing
else: no event, no frame read, LINK_MODE as it was. There are 249 of them. -/
def Obligations.ReservedWordsReportIllegalOp : Prop :=
  (∀ (w : Byte) (s : State), legalWord w = false → s.seq = .ready →
    decode w = .reserved w ∧ exec (.reserved w) s = .next { s with status := 0x05#8, errcode := 0 }) ∧
    ((List.range 256).filter (fun n => !legalWord (BitVec.ofNat 8 n))).length = 249

/-- 10_state R22: while BUSY is 1, as R27 has it, an offered word is held: the block's move takes no word from OPREQ,
whether the host has no move or lets the block run (log entry 4). And the model's choice (log entry 2): any other OPREQ
instruction, run while an operation is in flight, changes nothing; no step runs one there. -/
def Obligations.OffersAreHeldWhileBusy : Prop :=
  ∀ (s : State) (op : Op) (a : Bool) (i : Nat) (ph : Phase), s.seq = .run op a i ph →
    (∀ j : Instr, j.format = .opreq → j ≠ op.instr a → exec j s = .next s) ∧
      ∀ u t, BlockNext s u → step s = .next t → t.offers = s.offers

/-- The decoder's instruction is the one a step runs, and around it a step only takes the word from OPREQ and the move
that let the block run from the host's list; while an operation is in flight a step runs that operation's instruction
(the model's choice, log entry 2); with no word offered the block waits; and `withFetchWord` places a word so. Whose
move is next is the model's choice (log entry 4). -/
def Obligations.StepRunsTheDecodedInstruction : Prop :=
  (∀ s u : State, BlockNext s u →
    (∀ (w : Byte) (ws : List Byte), s.seq = .ready → s.offers = w :: ws →
      step s = exec (decode w) { u with offers := ws }) ∧
      (∀ (op : Op) (a : Bool) (i : Nat) (ph : Phase), s.seq = .run op a i ph → step s = exec (op.instr a) u) ∧
      (s.seq = .ready → s.offers = [] → step s = .next u)) ∧
    (∀ (s : State) (b : Byte) (hs : List HostMove), s.host = .packIn b :: hs →
      step s = exec (.pack b) { s with host := hs }) ∧
    ∀ (s : State) (w : Nat) (i : Instr), decodeTableWord 8 w = some i →
      step (s.withFetchWord 8 w) = exec i { s.withFetchWord 8 w with offers := [] }

/-! ### The phases of an operation in flight, each a run of the operation's own instruction (log entry 2) -/

/-- 40_mode R111: the ENTER phase of a bracket with mode m, answered Ok, and answered Err(c) with any code; how ERRCODE
takes it is `placeCode` (log entry 6). -/
def Obligations.EnterPhaseEntersOrAborts : Prop :=
  ∀ (s : State) (op : Op) (a : Bool) (i : Nat) (st : SeqStep) (m : Mode) (ms : List ModeAnswer),
    s.seq = .run op a i .enter → (prog op a)[i]? = some st → st.mode? = some m →
      (s.modeAnswers = .ok :: ms →
        exec (op.instr a) s = .next { s with
          modeAnswers := ms
          trace := s.trace ++ [.modeEnter m .ok]
          linkMode := 1#1 ++ encMode m
          link := m
          seq := .run op a i .body }) ∧
      ∀ c, s.modeAnswers = .err c :: ms →
        ∃ t, exec (op.instr a) s = .next t ∧
          AbortedFrom 0x4#4 (placeCode s.params c)
            { s with modeAnswers := ms, trace := s.trace ++ [.modeEnter m (.err c)] } t

/-- 40_mode R104: the BODY phase. A write of the whole buffer succeeds when the count reported is not below
its length, and fails with ERR_WRITE_FAILED or ERR_TRANSPORT otherwise; a HOLD's body is its delay and cannot fail. That
the whole buffer joins `wire`, tagged with LINK_MODE, on every answer, a failing one too, is the model's choice (log
entry 14): 20_memory R56 leaves open what arrived. How ERRCODE takes a code is `placeCode` (log entry 6). -/
def Obligations.BodyPhaseWritesOnceOrAborts : Prop :=
  ∀ (s : State) (op : Op) (a : Bool) (i : Nat), s.seq = .run op a i .body →
    (∀ (bs : List Byte) (r : TxAnswer) (ts : List TxAnswer) (u : State),
      (∃ m cmds, (prog op a)[i]? = some (.tx m cmds) ∧ bs = commandBytes s.params.wireOpc cmds) ∨
          (∃ k, (prog op a)[i]? = some (.row k) ∧ bs = s.wrow) →
        s.txAnswers = r :: ts →
        u = { s with
          txAnswers := ts
          trace := s.trace ++ [.txWrite bs r]
          wire := s.wire ++ bs.map (WireByte.mk s.linkMode) } →
        (∀ n, r = .ok n → bs.length ≤ n → exec (op.instr a) s = .next { u with seq := .run op a i .exit }) ∧
          (∀ n, r = .ok n → n < bs.length → ∃ t, exec (op.instr a) s = .next t ∧ AbortedFrom 0x2#4 0 u t) ∧
          ∀ c, r = .err c →
            ∃ t, exec (op.instr a) s = .next t ∧ AbortedFrom 0x3#4 (placeCode s.params c) u t) ∧
      ∀ m p, (prog op a)[i]? = some (.hold m p) →
        exec (op.instr a) s = .next { s with trace := s.trace ++ [.delay p], seq := .run op a i .exit }

/-- 40_mode R113: the EXIT phase. Answered Ok, the link is in Idle and the next step of the list begins, or the
operation completes (42_display R152); answered Err(c), it aborts with ERR_MODE, and how ERRCODE takes the code is
`placeCode` (log entry 6). -/
def Obligations.ExitPhaseReturnsToIdleOrAborts : Prop :=
  ∀ (s : State) (op : Op) (a : Bool) (i : Nat) (st : SeqStep) (m : Mode) (ms : List ModeAnswer),
    s.seq = .run op a i .exit → (prog op a)[i]? = some st → st.mode? = some m →
      (∀ u : State, s.modeAnswers = .ok :: ms →
        u = { s with
          modeAnswers := ms
          trace := s.trace ++ [.modeEnter .idle .ok]
          linkMode := 0b100#3
          link := .idle } →
        (∀ st', (prog op a)[i + 1]? = some st' →
          exec (op.instr a) s = .next { u with seq := .run op a (i + 1) st'.firstPhase }) ∧
          ((prog op a)[i + 1]? = none → ∃ t, exec (op.instr a) s = .next t ∧ CompletedFrom u t)) ∧
      ∀ c, s.modeAnswers = .err c :: ms →
        ∃ t, exec (op.instr a) s = .next t ∧
          AbortedFrom 0x4#4 (placeCode s.params c)
            { s with modeAnswers := ms, trace := s.trace ++ [.modeEnter .idle (.err c)] } t

/-- 40_mode R114: a WAIT step is its delay and nothing more, and the next step of the list begins. -/
def Obligations.WaitStepOnlyDelays : Prop :=
  ∀ (s : State) (op : Op) (a : Bool) (i : Nat) (p : DelayParam) (st' : SeqStep),
    s.seq = .run op a i .delay → (prog op a)[i]? = some (.wait p) → (prog op a)[i + 1]? = some st' →
      exec (op.instr a) s =
        .next { s with trace := s.trace ++ [.delay p], seq := .run op a (i + 1) st'.firstPhase }

/-- 42_display R171: ROW(r) in every state, raced or not (70_reset R236): PACK reads the row, emits nothing, and leaves
in WROW packRow of the row as it was read, which is the frame's row where no byte is raced; then, with every response
good, ModeEnter(Data), the write of that row, and ModeEnter(Idle): four steps of BLIT's instruction. After row 63 the
operation completes. The model's own: the counter of free values moves by 16 (log entries 22 and 24), a raced byte is
one of the values the host left there (log entry 12), and the wire keeps LINK_MODE beside each byte (log entry 14). -/
def Obligations.RowStepPacksThenWrites : Prop :=
  ∀ (s : State) (a : Bool) (r n : Nat) (ms : List ModeAnswer) (ts : List TxAnswer) (row : List Byte) (u : State),
    r < 64 → s.seq = .run .blit a (1 + r) .pack → row = packRow (s.frameRow r) →
    u = { s with
      wrow := row
      draws := s.draws + 16
      seq := .run .blit a (1 + r) .exit
      modeAnswers := ms
      txAnswers := ts
      linkMode := 0b100#3
      link := .idle
      trace := s.trace ++ bracketEvents .data row n
      wire := s.wire ++ onWire .data row } →
      exec .blit s = .next { s with wrow := row, draws := s.draws + 16, seq := .run .blit a (1 + r) .enter } ∧
        (s.raced = [] → row = packRow (rowBytes s.frame r)) ∧
        (s.modeAnswers = .ok :: .ok :: ms → s.txAnswers = .ok n :: ts → 64 ≤ n →
          (r < 63 → execTimes 4 .blit s = .next { u with seq := .run .blit a (2 + r) .pack }) ∧
            (r = 63 → ∃ t, execTimes 4 .blit s = .next t ∧ CompletedFrom u t))

/-- 70_reset R236: a FrameRead returns the frame's byte where the host has not written it during the BLIT in flight, and
the new or an overwritten value where it has (any of them, where it has written it more than once: the model's choice,
log entry 12); a host write during a BLIT keeps the old value among those and leaves WROW alone. And what PACK leaves in
WROW: its bytes 4c to 4c + 3 are the frame's byte of column c packed, or an overwritten value of it packed. -/
def Obligations.RacedFrameReadReturnsOldOrNew : Prop :=
  (∀ (s : State) (k : Nat) (a : BitVec 10),
    ((∀ v, (a.toNat, v) ∉ s.raced) → s.frameRead k a = Memory.read s.frame a.toNat) ∧
      (s.frameRead k a = Memory.read s.frame a.toNat ∨ (a.toNat, s.frameRead k a) ∈ s.raced)) ∧
    (∀ (s : State) (a : BitVec 10) (b : Byte) (hs : List HostMove), s.host = .frameWrite a b :: hs →
      step s = .next { s with
        host := hs
        frame := Memory.write s.frame a.toNat b
        raced := if s.seq.isBlit then (a.toNat, Memory.read s.frame a.toNat) :: s.raced else s.raced }) ∧
    ∀ (s : State) (a : Bool) (r c : Nat), r < 64 → c < 16 → s.seq = .run .blit a (1 + r) .pack →
      ∃ t b, exec .blit s = .next t ∧ (t.wrow.drop (4 * c)).take 4 = packPixelByte b ∧
        (b = Memory.read s.frame (16 * r + c) ∨ (16 * r + c, b) ∈ s.raced)

/-- The model's choice (log entry 3): a request that its device has not answered changes nothing, and FMTSEQ stays BUSY
(70_reset R247); a step only takes the move that let the block run from the host's list (log entry 4). -/
def Obligations.UnansweredRequestWaits : Prop :=
  ∀ (s u : State) (op : Op) (a : Bool) (i : Nat) (ph : Phase) (st : SeqStep), BlockNext s u →
    s.seq = .run op a i ph → (prog op a)[i]? = some st →
      ((ph = .enter ∨ ph = .exit) ∧ st.mode? ≠ none ∧ s.modeAnswers = [] →
        exec (op.instr a) s = .next s ∧ step s = .next u) ∧
        (ph = .body ∧ ((∃ m cmds, st = .tx m cmds) ∨ ∃ r, st = .row r) ∧ s.txAnswers = [] →
          exec (op.instr a) s = .next s ∧ step s = .next u)

/-! ### Whole operations -/

/-- 42_display R155: INIT on good responses: seven events, 40 bytes, RESULT OK, the link in Idle. It blocks for the sum
of the two delays (log entry 7) and has five observable transitions. The wire keeps LINK_MODE beside each byte (log
entry 14). -/
def Obligations.InitRunsToCompletion : Prop :=
  ∀ (s : State) (n : Nat) (ms : List ModeAnswer) (ts : List TxAnswer) (evs : List Event), s.seq = .ready →
    s.modeAnswers = .ok :: .ok :: .ok :: .ok :: ms → s.txAnswers = .ok n :: ts → 40 ≤ n →
    evs = [.modeEnter .reset .ok, .delay .tResetHold, .modeEnter .idle .ok, .delay .tResetSettle,
      .modeEnter .command .ok, .txWrite (commandBytes s.params.wireOpc initSeq) (.ok n), .modeEnter .idle .ok] →
      execTimes 8 .init s = .next { s with
        status := 0x01#8
        errcode := 0
        linkMode := 0b100#3
        link := .idle
        modeAnswers := ms
        txAnswers := ts
        trace := s.trace ++ evs
        wire := s.wire ++ onWire .command (commandBytes s.params.wireOpc initSeq) } ∧
        observableCount evs = 5 ∧ blockingTime evs = Config.tResetHold + Config.tResetSettle

/-- 42_display R160, R163, R166: CLEAR, SETON and SETINV on good responses: one bracket in Command mode with the
operation's bytes, RESULT OK, the link in Idle. The wire keeps LINK_MODE beside each byte (log entry 14). -/
def Obligations.SingleBracketOperationsRunToCompletion : Prop :=
  ∀ (s : State) (i : Instr) (bs : List Byte) (n : Nat) (ms : List ModeAnswer) (ts : List TxAnswer), s.seq = .ready →
    (i, bs) ∈
      [(.clear, [s.params.wireOpc.drawRect, 0x00#8, 0x00#8, 0x3F#8, 0x3F#8, 0x00#8]),
        (.seton true, [s.params.wireOpc.displayOn]), (.seton false, [s.params.wireOpc.displayOff]),
        (.setinv true, [s.params.wireOpc.invertDisplay]), (.setinv false, [s.params.wireOpc.normalDisplay])] →
    s.modeAnswers = .ok :: .ok :: ms → s.txAnswers = .ok n :: ts → bs.length ≤ n →
      execTimes 4 i s = .next { s with
        status := 0x01#8
        errcode := 0
        linkMode := 0b100#3
        link := .idle
        modeAnswers := ms
        txAnswers := ts
        trace := s.trace ++ bracketEvents .command bs n
        wire := s.wire ++ onWire .command bs }

/-- 42_display R170: BLIT on good responses and a frame the host leaves alone: the preamble bracket, then the 64 rows in
order, each its own Data bracket with packRow of the frame row; RESULT OK, the link in Idle; 195 events, 4102 bytes.
WROW and the counter of free values end at free values (log entries 10 and 24); the wire keeps LINK_MODE beside each
byte (log entry 14). -/
def Obligations.BlitRunsToCompletion : Prop :=
  ∀ (s : State) (n : Nat) (ns : List Nat) (ms : List ModeAnswer) (ts : List TxAnswer) (evs : List Event),
    s.seq = .ready → s.raced = [] →
    s.modeAnswers = List.replicate 130 .ok ++ ms → s.txAnswers = .ok n :: (ns.map .ok ++ ts) → 6 ≤ n →
    ns.length = 64 → (∀ k ∈ ns, 64 ≤ k) →
    evs = bracketEvents .command (commandBytes s.params.wireOpc blitPre) n ++
      (List.range 64).flatMap (fun r => bracketEvents .data (packRow (rowBytes s.frame r)) (ns.getD r 0)) →
      (∃ t, execTimes 260 .blit s = .next t ∧
        t = { s with
          status := 0x01#8
          errcode := 0
          linkMode := 0b100#3
          link := .idle
          wrow := t.wrow
          draws := t.draws
          modeAnswers := ms
          txAnswers := ts
          trace := s.trace ++ evs
          wire := s.wire ++ onWire .command (commandBytes s.params.wireOpc blitPre) ++
            (List.range 64).flatMap (fun r => onWire .data (packRow (rowBytes s.frame r))) }) ∧
        observableCount evs = 195 ∧ (traceBytes evs).length = 4102

/-- 42_display R172: BLIT stops at its first failing response, wherever that is. In step 0, at ENTER, BODY or EXIT, no
Data bracket is entered; in row k, at ENTER, BODY or EXIT, rows 0 to k - 1 were sent whole, the failing response's event
is the last, and no later row is sent. How ERRCODE takes a code is `placeCode` (log entry 6). -/
def Obligations.BlitStopsAtTheFirstFailure : Prop :=
  ∀ (s : State) (c : ErrCode) (n code : Nat) (result : BitVec 4) (r : TxAnswer) (ms : List ModeAnswer) (ts : List TxAnswer)
    (pre : List Byte), s.seq = .ready → s.raced = [] → pre = commandBytes s.params.wireOpc blitPre →
    (s.modeAnswers = .err c :: ms → s.txAnswers = ts →
      ∃ t, execTimes 2 .blit s = .next t ∧
        BlitAborted s t 0x4#4 (placeCode s.params c) (s.linkMode.extractLsb' 0 2) ms ts
          [.modeEnter .command (.err c)]) ∧
    (WriteFails s.params 6 r result code → s.modeAnswers = .ok :: ms → s.txAnswers = r :: ts →
      ∃ t, execTimes 3 .blit s = .next t ∧
        BlitAborted s t result code 0b11#2 ms ts [.modeEnter .command .ok, .txWrite pre r]) ∧
    (s.modeAnswers = .ok :: .err c :: ms → s.txAnswers = .ok n :: ts → 6 ≤ n →
      ∃ t, execTimes 4 .blit s = .next t ∧
        BlitAborted s t 0x4#4 (placeCode s.params c) 0b11#2 ms ts
          [.modeEnter .command .ok, .txWrite pre (.ok n), .modeEnter .idle (.err c)]) ∧
    ∀ (k : Nat) (ns : List Nat) (row : List Byte), k < 64 → 6 ≤ n → ns.length = k → (∀ x ∈ ns, 64 ≤ x) →
      row = packRow (rowBytes s.frame k) →
      (s.modeAnswers = List.replicate (2 * k + 2) .ok ++ .err c :: ms →
        s.txAnswers = .ok n :: (ns.map .ok ++ ts) →
        ∃ t, execTimes (4 * k + 6) .blit s = .next t ∧
          BlitAborted s t 0x4#4 (placeCode s.params c) 0b00#2 ms ts
            (blitEvents s n ns k ++ [.modeEnter .data (.err c)])) ∧
      (WriteFails s.params 64 r result code → s.modeAnswers = List.replicate (2 * k + 3) .ok ++ ms →
        s.txAnswers = .ok n :: (ns.map .ok ++ r :: ts) →
        ∃ t, execTimes (4 * k + 7) .blit s = .next t ∧
          BlitAborted s t result code 0b10#2 ms ts (blitEvents s n ns k ++ [.modeEnter .data .ok, .txWrite row r])) ∧
      ∀ n', 64 ≤ n' →
        s.modeAnswers = List.replicate (2 * k + 3) .ok ++ .err c :: ms →
        s.txAnswers = .ok n :: (ns.map .ok ++ .ok n' :: ts) →
        ∃ t, execTimes (4 * k + 8) .blit s = .next t ∧
          BlitAborted s t 0x4#4 (placeCode s.params c) 0b10#2 ms ts
            (blitEvents s n ns k ++ [.modeEnter .data .ok, .txWrite row (.ok n'), .modeEnter .idle (.err c)])

/-! ### The abort and the wire commands -/

/-- 60_exceptions R205: what an abort writes, for each failure: RESULT and ERRCODE, BUSY 0, READY, VALID 0 with MODE
kept inside a bracket only; and no event. How ERRCODE takes a code is `placeCode` (log entry 6), of which
`ErrcodeAlwaysFollowsResult` says more; what an abort does to the rest, `AbortLeavesTheRestAlone`. -/
def Obligations.AbortWritesItsResult : Prop :=
  ∀ (s : State) (c : ErrCode),
    (s.abort .writeFailed).status = 0x02#8 ∧ (s.abort .writeFailed).errcode = 0 ∧
      (s.abort (.transport c)).status = 0x03#8 ∧ (s.abort (.transport c)).errcode = placeCode s.params c ∧
      (s.abort (.mode c)).status = 0x04#8 ∧ (s.abort (.mode c)).errcode = placeCode s.params c ∧
      (s.abort .illegalOp).status = 0x05#8 ∧ (s.abort .illegalOp).errcode = 0 ∧
      (s.abort .illegalOp).linkMode = s.linkMode ∧ (s.abort .illegalOp).link = s.link ∧
      ∀ f : Failure,
        (s.abort f).seq = .ready ∧ (s.abort f).trace = s.trace ∧ (s.abort f).wire = s.wire ∧
          (s.abort f).frame = s.frame ∧ (s.abort f).offers = s.offers ∧ (s.abort f).modeAnswers = s.modeAnswers ∧
          (s.abort f).txAnswers = s.txAnswers ∧ (s.abort f).packOut = s.packOut ∧
          (f ≠ .illegalOp → (s.abort f).linkMode = 0#1 ++ s.linkMode.extractLsb' 0 2)

/-- What an abort leaves alone: it writes the registers of 60_exceptions R205 and nothing else but what the spec leaves
unspecified, which is the model's choice: the physical mode of a bracket that failed (log entry 9), WROW where a BLIT
ends (log entry 10), whose races are over (70_reset R236), and the counter of free values (log entry 24). A failure
outside a BLIT keeps WROW and the races, and a reserved word's keeps the physical mode and the counter too. -/
def Obligations.AbortLeavesTheRestAlone : Prop :=
  ∀ (s t : State) (f : Failure), t = s.abort f →
    t = { s with
      seq := .ready
      status := t.status
      errcode := t.errcode
      linkMode := t.linkMode
      link := t.link
      wrow := t.wrow
      raced := t.raced
      draws := t.draws } ∧
      (s.seq.isBlit = false →
        t.wrow = s.wrow ∧ t.raced = s.raced ∧ (f = .illegalOp → t.link = s.link ∧ t.draws = s.draws)) ∧
      (s.seq.isBlit = true → t.wrow.length = 64 ∧ t.raced = [])

/-- 30_encoding R80: each wire command, in every state, puts its opcode byte and then its operand bytes in order on the
wire, and changes nothing else: what such an instruction does to FMTSEQ is the model's choice (log entry 14). -/
def Obligations.WireCommandsEmitOpcodeThenOperands : Prop :=
  ∀ (s : State) (v lo hi d0 d1 d2 d3 d4 d5 d6 d7 : Byte) (o : WireOpc) (sends : List Byte → State),
    o = s.params.wireOpc → (∀ bs, sends bs = { s with wire := s.wire ++ bs.map (WireByte.mk s.linkMode) }) →
      exec .opcDisplayOff s = .next (sends [o.displayOff]) ∧
      exec .opcDisplayOn s = .next (sends [o.displayOn]) ∧
      exec (.opcSetClock v) s = .next (sends [o.setClock, v]) ∧
      exec (.opcSetMux v) s = .next (sends [o.setMux, v]) ∧
      exec (.opcSetOffset v) s = .next (sends [o.setOffset, v]) ∧
      exec (.opcSetStartLine v) s = .next (sends [o.setStartLine, v]) ∧
      exec (.opcMasterConfig v) s = .next (sends [o.masterConfig, v]) ∧
      exec (.opcSetRemap v) s = .next (sends [o.setRemap, v]) ∧
      exec .opcSetCurrentFull s = .next (sends [o.setCurrentFull]) ∧
      exec (.opcSetGrayTable d0 d1 d2 d3 d4 d5 d6 d7) s =
        .next (sends [o.setGrayTable, d0, d1, d2, d3, d4, d5, d6, d7]) ∧
      exec (.opcSetContrast v) s = .next (sends [o.setContrast, v]) ∧
      exec (.opcSetRowPeriod v) s = .next (sends [o.setRowPeriod, v]) ∧
      exec (.opcSetPhaseLen v) s = .next (sends [o.setPhaseLen, v]) ∧
      exec (.opcSetPrechargeLevel v) s = .next (sends [o.setPrechargeLevel, v]) ∧
      exec (.opcSetPrechargeEnable v) s = .next (sends [o.setPrechargeEnable, v]) ∧
      exec (.opcSetVcomh v) s = .next (sends [o.setVcomh, v]) ∧
      exec (.opcSetVsl v) s = .next (sends [o.setVsl, v]) ∧
      exec .opcNormalDisplay s = .next (sends [o.normalDisplay]) ∧
      exec .opcInvertDisplay s = .next (sends [o.invertDisplay]) ∧
      exec (.opcGfxAccel v) s = .next (sends [o.gfxAccel, v]) ∧
      exec (.opcDrawRect d0 d1 d2 d3 d4) s = .next (sends [o.drawRect, d0, d1, d2, d3, d4]) ∧
      exec (.opcSetColAddr lo hi) s = .next (sends [o.setColAddr, lo, hi]) ∧
      exec (.opcSetRowAddr lo hi) s = .next (sends [o.setRowAddr, lo, hi])

/-- The body of a TX step puts on the wire exactly what its commands put there, each run once, in order (20_memory R55:
one write of the whole buffer; log entry 14), whether the host has no move or lets the block run (log entry 4). -/
def Obligations.TxBodyRunsItsCommands : Prop :=
  ∀ (s u : State) (op : Op) (a : Bool) (i : Nat) (m : Mode) (cmds : List Instr) (r : TxAnswer) (ts : List TxAnswer),
    BlockNext s u → s.seq = .run op a i .body → (prog op a)[i]? = some (.tx m cmds) → s.txAnswers = r :: ts →
      ∃ v t, execAll cmds s = .next v ∧ step s = .next t ∧ t.wire = v.wire ∧ v = { s with wire := v.wire }

/-! ### Frames -/

/-- What an OPREQ word's instruction (INIT, CLEAR, SETON, SETINV, BLIT, RESERVED) leaves unchanged: the parameters, the
pack port, the offers, the host's moves and every byte of the frame; WROW and the races, but for BLIT; STATUS and
ERRCODE while the operation stays in flight; and the trace and the wire only grow. That the operation's own instruction
runs its phases, and any other changes nothing meanwhile, is the model's choice (log entry 2), as is what joins the wire
(log entry 14). -/
def Obligations.OperationsLeaveTheRestUnchanged : Prop :=
  ∀ (i : Instr) (s t : State), i.format = .opreq → exec i s = .next t →
    t.params = s.params ∧ t.packIn = s.packIn ∧ t.packOut = s.packOut ∧ t.offers = s.offers ∧ t.host = s.host ∧
      (∀ a, Memory.read t.frame a = Memory.read s.frame a) ∧
      (i ≠ .blit → t.wrow = s.wrow ∧ t.raced = s.raced) ∧
      (s.seq ≠ .ready → t.seq ≠ .ready → t.status = s.status ∧ t.errcode = s.errcode) ∧
      (∃ es, t.trace = s.trace ++ es) ∧ ∃ ws, t.wire = s.wire ++ ws

/-- What the pack port and the wire commands leave unchanged: every register of the block but the port's own, the
sequencer, and every byte of the frame. The pack port writes PACK_IN and PACK_OUT (10_state R31). That a wire command,
run as an instruction, writes the wire alone is the model's choice (log entry 14). -/
def Obligations.PortAndWireLeaveTheRestUnchanged : Prop :=
  ∀ (i : Instr) (s t : State), i.format ≠ .opreq → exec i s = .next t →
    t = { s with wire := t.wire, packIn := t.packIn, packOut := t.packOut } ∧
      (i.format = .wire → t.packIn = s.packIn ∧ t.packOut = s.packOut) ∧
      (i.format = .packPort → t.wire = s.wire) ∧
      ∀ a, Memory.read t.frame a = Memory.read s.frame a

/-- 20_memory R61: an instruction reads the frame only in a PACK phase: at any other position its next state does not
depend on the frame. -/
def Obligations.FrameIsReadOnlyInPack : Prop :=
  ∀ (i : Instr) (s t : State) (f : List Host.Cell), (∀ op a k, s.seq ≠ .run op a k .pack) →
    exec i s = .next t → exec i { s with frame := f } = .next { t with frame := f }

/-- A step writes the frame only as the host's move says: that byte and no other; and never the parameters, so the ROM's
bytes never change (10_state R29). -/
def Obligations.OnlyTheHostWritesTheFrame : Prop :=
  ∀ s t : State, step s = .next t →
    t.params = s.params ∧
      ((∀ a, Memory.read t.frame a = Memory.read s.frame a) ∨
        ∃ a b hs, s.host = .frameWrite a b :: hs ∧
          (FrameCanonical s → Memory.read t.frame a.toNat = b) ∧
          ∀ a', a' ≠ a.toNat → Memory.read t.frame a' = Memory.read s.frame a')

/-- The host's moves that are not the block's: an offer joins the words held, and a write of STATUS is ignored
(10_state R23; log entry 18). -/
def Obligations.OffersJoinAndStatusWritesAreIgnored : Prop :=
  ∀ (s : State) (w v : Byte) (hs : List HostMove),
    (s.host = .offer w :: hs → step s = .next { s with host := hs, offers := s.offers ++ [w] }) ∧
      (s.host = .writeStatus v :: hs → step s = .next { s with host := hs })

/-! ### Invariants that every step keeps -/

/-- The invariants below hold at reset. -/
def Obligations.ResetMeetsTheInvariants : Prop :=
  SeqIsPosition State.reset ∧ StatusFollowsSeq State.reset ∧ ErrcodeFollowsResult State.reset ∧
    LinkModeTrue State.reset ∧ WrowHoldsRow State.reset ∧ WireInWholeBuffers State.reset ∧
    WritesFollowTheirMode State.reset ∧ FailureEndsOperation State.reset ∧ RacedOnlyInBlit State.reset ∧
    PackOutFollowsPackIn State.reset ∧ FrameCanonical State.reset ∧ ExitsFollowBodies State.reset ∧
    CodesOfType State.reset

/-- From a position that 10_state R27 has, a step always answers a next state (60_exceptions R202: FMTSEQ raises nothing
else), and that state's position is one again. -/
def Obligations.StepsNeverStopAndKeepPositions : Prop :=
  ∀ s : State, SeqIsPosition s → ∃ t, step s = .next t ∧ SeqIsPosition t

/-- 10_state R27: BUSY is 1 exactly when seq is not READY; with R23's reserved bits and codes. -/
def Obligations.StatusAlwaysFollowsSeq : Prop :=
  ∀ s t : State, StatusFollowsSeq s → step s = .next t → StatusFollowsSeq t

/-- 10_state R25: ERRCODE is 0 for every RESULT but ERR_TRANSPORT and ERR_MODE, and stays within its width; every code,
still to come or in the trace, stays of ERR_CODE_T (00_scope R6); and a code that is a number and fits is placed
unchanged, any other somehow within the width. ERR_CODE_T as data and the placement are log entry 6. -/
def Obligations.ErrcodeAlwaysFollowsResult : Prop :=
  (∀ s t : State, step s = .next t →
    (StatusFollowsSeq s → ErrcodeFollowsResult s → ErrcodeFollowsResult t) ∧
      (CodesOfType s → CodesOfType t ∧ t.params.errCodeT = s.params.errCodeT)) ∧
    ∀ p : Params, (∀ n, n < 2 ^ p.errCodeW → placeCode p (.num n) = n) ∧ ∀ c, placeCode p c < 2 ^ p.errCodeW

/-- 40_mode R118: after every success LINK_MODE is 0b100, after every abort in a bracket VALID is 0; and where VALID is
1, MODE is the physical mode. -/
def Obligations.LinkModeAlwaysTrue : Prop :=
  ∀ s t : State, StatusFollowsSeq s → LinkModeTrue s → step s = .next t → LinkModeTrue t

/-- 10_state R30: WROW keeps its 64 bytes and holds a wire row from a ROW step's PACK on. -/
def Obligations.WrowAlwaysHoldsItsRow : Prop :=
  ∀ s t : State, WrowHoldsRow s → step s = .next t → WrowHoldsRow t

/-- 30_encoding R86: every byte sent in Command mode belongs to one of the command sequences, sent whole, and every byte
sent in Data mode to a wire row. The mode is LINK_MODE's as the byte was sent (log entry 14). -/
def Obligations.WireAlwaysInWholeBuffers : Prop :=
  ∀ s t : State, LinkModeTrue s → WrowHoldsRow s → WireInWholeBuffers s → step s = .next t → WireInWholeBuffers t

/-- 20_memory R55: a whole buffer has 40, 6, 1 or 64 bytes. -/
def Obligations.WholeBuffersHaveFourLengths : Prop :=
  ∀ (o : WireOpc) (link : BitVec 3) (bs : List Byte), WholeBuffer o link bs → bs.length ∈ [40, 6, 1, 64]

/-- 70_reset R239: every TxWrite is preceded in its bracket by a ModeEnter answered Ok, with no event between them. -/
def Obligations.WritesAlwaysFollowTheirMode : Prop :=
  ∀ s t : State, WrowHoldsRow s → WritesFollowTheirMode s → step s = .next t → WritesFollowTheirMode t

/-- 60_exceptions R206: no retry, no resume, no ModeEnter(Idle) after a failure: the next event opens a new operation. -/
def Obligations.FailureAlwaysEndsItsOperation : Prop :=
  ∀ s t : State, FailureEndsOperation s → step s = .next t → FailureEndsOperation t

/-- PACK_OUT always is PACK_IN packed (10_state R31), the frame stays canonical, and bytes are raced only in a BLIT
(70_reset R236). -/
def Obligations.PortFrameAndRacesStayRight : Prop :=
  ∀ s t : State, step s = .next t →
    (PackOutFollowsPackIn s → PackOutFollowsPackIn t) ∧ (FrameCanonical s → FrameCanonical t) ∧
      (RacedOnlyInBlit s → RacedOnlyInBlit t)

/-! ### Rules of the whole machine -/

/-- 40_mode R117 and 20_memory R59: a step emits at most one event (the model's inference, log entry 1), and each kind
of event only at its phase: ModeEnter(Idle) at an EXIT, ModeEnter(Reset) at INIT's step 0, ModeEnter(Data) at a ROW's
ENTER, ModeEnter(Command) at a TX's ENTER, a TxWrite at a BODY, the delays in INIT. And that EXIT is the EXIT of a
bracket whose body succeeded: where `ExitsFollowBodies` holds, which a step keeps, the two events before ModeEnter(Idle)
are the bracket's ModeEnter, answered Ok, and its body's event, which succeeded. -/
def Obligations.EventsOnlyAtTheirPhases : Prop :=
  (∀ s t : State, step s = .next t →
    t.trace = s.trace ∨
      ∃ e op a i ph, s.seq = .run op a i ph ∧ t.trace = s.trace ++ [e] ∧
        match e with
        | .modeEnter .idle _ => ph = .exit
        | .modeEnter .reset _ => op = .init ∧ i = 0 ∧ ph = .enter
        | .modeEnter .data _ => ph = .enter ∧ ∃ r, (prog op a)[i]? = some (.row r)
        | .modeEnter .command _ => ph = .enter ∧ ∃ cmds, (prog op a)[i]? = some (.tx .command cmds)
        | .txWrite _ _ => ph = .body
        | .delay .tResetHold => op = .init ∧ i = 0 ∧ ph = .body
        | .delay .tResetSettle => op = .init ∧ i = 1 ∧ ph = .delay) ∧
    ∀ s t : State, ExitsFollowBodies s → step s = .next t →
      ExitsFollowBodies t ∧
        ∀ r, t.trace = s.trace ++ [.modeEnter .idle r] →
          ∃ m pre e, s.seq.exitMode = some m ∧ s.trace = pre ++ [.modeEnter m .ok, e] ∧ e.bodySucceeds = true

/-- 42_display R153: what an operation emits does not depend on STATUS, ERRCODE, LINK_MODE, the physical mode, WROW (but
for a row packed and not yet sent), the pack port, the wire or the trace: two machines with the same inputs emit the
same events, for any number of steps. The inputs hold the counter of free values, the model's own (log entry 24), which
earlier operations move: with it equal, a raced byte (70_reset R236) is read alike in both, which rests on the model's
draws (log entry 22), not on the spec. -/
def Obligations.OperationsDependOnTheirInputsOnly : Prop :=
  ∀ (n : Nat) (s t s' : State), SameInputs s t → Sys2Proof.core.run n s = .next s' →
    ∃ t' es, Sys2Proof.core.run n t = .next t' ∧ SameInputs s' t' ∧ s'.trace = s.trace ++ es ∧ t'.trace = t.trace ++ es

/-- 70_reset R247: every answered step of the block (whose turn it is: log entry 4) brings an operation closer to its
end, and acceptance starts it at 7 phases for INIT, 3 for CLEAR, SETON and SETINV, and 259 for BLIT. -/
def Obligations.AnsweredOperationsEnd : Prop :=
  (∀ s u : State, SeqIsPosition s → s.seq ≠ .ready → BlockNext s u → Answered s →
    ∃ t, step s = .next t ∧ t.seq.phasesLeft < s.seq.phasesLeft) ∧
    ∀ a : Bool,
      Position.phasesLeft (.run .init a 0 .enter) = 7 ∧ Position.phasesLeft (.run .clear a 0 .enter) = 3 ∧
        Position.phasesLeft (.run .seton a 0 .enter) = 3 ∧ Position.phasesLeft (.run .setinv a 0 .enter) = 3 ∧
        Position.phasesLeft (.run .blit a 0 .enter) = 259
end

