-- ==== Sys2Proof/Laws/Memory.lean ====
section
/-! SUPPORT. The frame memory's laws: a write keeps the canonical form, is read back, and leaves every other address
alone. -/

namespace Sys2Proof.Machine

theorem memory_wfFrom_mono {lo lo' : Nat} {m : List Host.Cell} (hle : lo' ≤ lo) (h : Memory.wfFrom lo m = true) :
    Memory.wfFrom lo' m = true := by
  cases m with
  | nil => rfl
  | cons c m =>
    obtain ⟨k, v⟩ := c
    simp only [Memory.wfFrom, Bool.and_eq_true, decide_eq_true_eq] at h ⊢
    exact ⟨⟨⟨by omega, h.1.1.2⟩, h.1.2⟩, h.2⟩

theorem memory_write_wfFrom {lo a : Nat} {m : List Host.Cell} (b : Byte) (hlo : lo ≤ a) (ha : a < frameBytes)
    (h : Memory.wfFrom lo m = true) : Memory.wfFrom lo (Memory.write m a b) = true := by
  induction m generalizing lo with
  | nil =>
    by_cases hb : b = unlistedByte <;> simp [Memory.write, Memory.wfFrom, hb, hlo, ha]
  | cons c m ih =>
    obtain ⟨k, v⟩ := c
    have hm := h
    simp only [Memory.wfFrom, Bool.and_eq_true, decide_eq_true_eq] at h
    obtain ⟨⟨⟨h1, h2⟩, h3⟩, h4⟩ := h
    unfold Memory.write
    split
    · split
      · exact hm
      · rename_i hlt hb
        have hk : Memory.wfFrom (a + 1) ((k, v) :: m) = true := by
          simp only [Memory.wfFrom, Bool.and_eq_true, decide_eq_true_eq]
          exact ⟨⟨⟨by omega, h2⟩, h3⟩, h4⟩
        simp [Memory.wfFrom, hlo, ha, hb] at hk ⊢
        exact hk
    · split
      · rename_i heq
        subst heq
        split
        · exact memory_wfFrom_mono (by omega) h4
        · rename_i hb
          simp [Memory.wfFrom, h1, h2, hb, h4]
      · have := ih (lo := k + 1) (by omega) h4
        simp only [Memory.wfFrom, Bool.and_eq_true, decide_eq_true_eq]
        exact ⟨⟨⟨h1, h2⟩, h3⟩, this⟩

/-- A write at an address of the frame keeps the canonical form. -/
theorem memory_write_wf {m : List Host.Cell} {a : Nat} (b : Byte) (ha : a < frameBytes) (h : Memory.wf m = true) :
    Memory.wf (Memory.write m a b) = true :=
  memory_write_wfFrom b (Nat.zero_le a) ha h

theorem memory_read_below {lo a : Nat} {m : List Host.Cell} (ha : a < lo) (h : Memory.wfFrom lo m = true) :
    Memory.read m a = unlistedByte := by
  induction m generalizing lo with
  | nil => rfl
  | cons c m ih =>
    obtain ⟨k, v⟩ := c
    simp only [Memory.wfFrom, Bool.and_eq_true, decide_eq_true_eq] at h
    have hne : k ≠ a := by omega
    rw [Memory.read, if_neg hne]
    exact ih (lo := k + 1) (by omega) h.2

/-- A byte written is the byte read. -/
theorem memory_read_write_same {lo a : Nat} {m : List Host.Cell} (b : Byte) (h : Memory.wfFrom lo m = true) :
    Memory.read (Memory.write m a b) a = b := by
  induction m generalizing lo with
  | nil => by_cases hb : b = unlistedByte <;> simp [Memory.write, Memory.read, hb]
  | cons c m ih =>
    obtain ⟨k, v⟩ := c
    have hm := h
    simp only [Memory.wfFrom, Bool.and_eq_true, decide_eq_true_eq] at h
    unfold Memory.write
    split
    · rename_i hlt
      split
      · rename_i hb
        have hne : k ≠ a := by omega
        rw [Memory.read, if_neg hne, hb]
        exact memory_read_below (lo := k + 1) (by omega) h.2
      · simp [Memory.read]
    · split
      · rename_i heq
        split
        · rename_i hb
          rw [hb]
          exact memory_read_below (lo := k + 1) (by omega) h.2
        · simp [Memory.read]
      · rename_i hne
        have hne' : k ≠ a := fun e => hne e.symm
        rw [Memory.read, if_neg hne']
        exact ih h.2

/-- A write leaves every other address alone. -/
theorem memory_read_write_other {a a' : Nat} (m : List Host.Cell) (b : Byte) (hne : a' ≠ a) :
    Memory.read (Memory.write m a b) a' = Memory.read m a' := by
  induction m with
  | nil =>
    by_cases hb : b = unlistedByte
    · simp [Memory.write, hb]
    · simp [Memory.write, hb, Memory.read, Ne.symm hne]
  | cons c m ih =>
    obtain ⟨k, v⟩ := c
    unfold Memory.write
    split
    · split
      · rfl
      · simp [Memory.read, Ne.symm hne]
    · split
      · rename_i heq
        subst heq
        split <;> simp [Memory.read, Ne.symm hne]
      · by_cases hk : k = a' <;> simp [Memory.read, hk, ih]

/-- The memory after reset is in canonical form. -/
theorem reset_frame_wf : Memory.wf State.reset.frame = true := rfl

end Sys2Proof.Machine
end

