-- ==== Sys2Proof/Laws/State.lean ====
section
/-! SUPPORT. What each shared update of the state leaves in each field: one lemma a field and update. -/

namespace Sys2Proof.Machine

@[simp] theorem State_log_params (e : Event) (s : State) : (s.log e).params = s.params := rfl

@[simp] theorem State_log_seq (e : Event) (s : State) : (s.log e).seq = s.seq := rfl

@[simp] theorem State_log_status (e : Event) (s : State) : (s.log e).status = s.status := rfl

@[simp] theorem State_log_errcode (e : Event) (s : State) : (s.log e).errcode = s.errcode := rfl

@[simp] theorem State_log_linkMode (e : Event) (s : State) : (s.log e).linkMode = s.linkMode := rfl

@[simp] theorem State_log_wrow (e : Event) (s : State) : (s.log e).wrow = s.wrow := rfl

@[simp] theorem State_log_packIn (e : Event) (s : State) : (s.log e).packIn = s.packIn := rfl

@[simp] theorem State_log_packOut (e : Event) (s : State) : (s.log e).packOut = s.packOut := rfl

@[simp] theorem State_log_frame (e : Event) (s : State) : (s.log e).frame = s.frame := rfl

@[simp] theorem State_log_raced (e : Event) (s : State) : (s.log e).raced = s.raced := rfl

@[simp] theorem State_log_link (e : Event) (s : State) : (s.log e).link = s.link := rfl

@[simp] theorem State_log_wire (e : Event) (s : State) : (s.log e).wire = s.wire := rfl

@[simp] theorem State_log_trace (e : Event) (s : State) : (s.log e).trace = s.trace ++ [e] := rfl

@[simp] theorem State_log_offers (e : Event) (s : State) : (s.log e).offers = s.offers := rfl

@[simp] theorem State_log_host (e : Event) (s : State) : (s.log e).host = s.host := rfl

@[simp] theorem State_log_modeAnswers (e : Event) (s : State) : (s.log e).modeAnswers = s.modeAnswers := rfl

@[simp] theorem State_log_txAnswers (e : Event) (s : State) : (s.log e).txAnswers = s.txAnswers := rfl

@[simp] theorem State_log_draws (e : Event) (s : State) : (s.log e).draws = s.draws := rfl

@[simp] theorem State_emit_params (bs : List Byte) (s : State) : (s.emit bs).params = s.params := rfl

@[simp] theorem State_emit_seq (bs : List Byte) (s : State) : (s.emit bs).seq = s.seq := rfl

@[simp] theorem State_emit_status (bs : List Byte) (s : State) : (s.emit bs).status = s.status := rfl

@[simp] theorem State_emit_errcode (bs : List Byte) (s : State) : (s.emit bs).errcode = s.errcode := rfl

@[simp] theorem State_emit_linkMode (bs : List Byte) (s : State) : (s.emit bs).linkMode = s.linkMode := rfl

@[simp] theorem State_emit_wrow (bs : List Byte) (s : State) : (s.emit bs).wrow = s.wrow := rfl

@[simp] theorem State_emit_packIn (bs : List Byte) (s : State) : (s.emit bs).packIn = s.packIn := rfl

@[simp] theorem State_emit_packOut (bs : List Byte) (s : State) : (s.emit bs).packOut = s.packOut := rfl

@[simp] theorem State_emit_frame (bs : List Byte) (s : State) : (s.emit bs).frame = s.frame := rfl

@[simp] theorem State_emit_raced (bs : List Byte) (s : State) : (s.emit bs).raced = s.raced := rfl

@[simp] theorem State_emit_link (bs : List Byte) (s : State) : (s.emit bs).link = s.link := rfl

@[simp] theorem State_emit_wire (bs : List Byte) (s : State) : (s.emit bs).wire = s.wire ++ bs.map (fun b => WireByte.mk s.linkMode b) := rfl

@[simp] theorem State_emit_trace (bs : List Byte) (s : State) : (s.emit bs).trace = s.trace := rfl

@[simp] theorem State_emit_offers (bs : List Byte) (s : State) : (s.emit bs).offers = s.offers := rfl

@[simp] theorem State_emit_host (bs : List Byte) (s : State) : (s.emit bs).host = s.host := rfl

@[simp] theorem State_emit_modeAnswers (bs : List Byte) (s : State) : (s.emit bs).modeAnswers = s.modeAnswers := rfl

@[simp] theorem State_emit_txAnswers (bs : List Byte) (s : State) : (s.emit bs).txAnswers = s.txAnswers := rfl

@[simp] theorem State_emit_draws (bs : List Byte) (s : State) : (s.emit bs).draws = s.draws := rfl

@[simp] theorem State_emitCommand_params (i : Instr) (s : State) : (s.emitCommand i).params = s.params := rfl

@[simp] theorem State_emitCommand_seq (i : Instr) (s : State) : (s.emitCommand i).seq = s.seq := rfl

@[simp] theorem State_emitCommand_status (i : Instr) (s : State) : (s.emitCommand i).status = s.status := rfl

@[simp] theorem State_emitCommand_errcode (i : Instr) (s : State) : (s.emitCommand i).errcode = s.errcode := rfl

@[simp] theorem State_emitCommand_linkMode (i : Instr) (s : State) : (s.emitCommand i).linkMode = s.linkMode := rfl

@[simp] theorem State_emitCommand_wrow (i : Instr) (s : State) : (s.emitCommand i).wrow = s.wrow := rfl

@[simp] theorem State_emitCommand_packIn (i : Instr) (s : State) : (s.emitCommand i).packIn = s.packIn := rfl

@[simp] theorem State_emitCommand_packOut (i : Instr) (s : State) : (s.emitCommand i).packOut = s.packOut := rfl

@[simp] theorem State_emitCommand_frame (i : Instr) (s : State) : (s.emitCommand i).frame = s.frame := rfl

@[simp] theorem State_emitCommand_raced (i : Instr) (s : State) : (s.emitCommand i).raced = s.raced := rfl

@[simp] theorem State_emitCommand_link (i : Instr) (s : State) : (s.emitCommand i).link = s.link := rfl

@[simp] theorem State_emitCommand_wire (i : Instr) (s : State) : (s.emitCommand i).wire = s.wire ++ (encode s.params.wireOpc i).map (fun b => WireByte.mk s.linkMode b) := rfl

@[simp] theorem State_emitCommand_trace (i : Instr) (s : State) : (s.emitCommand i).trace = s.trace := rfl

@[simp] theorem State_emitCommand_offers (i : Instr) (s : State) : (s.emitCommand i).offers = s.offers := rfl

@[simp] theorem State_emitCommand_host (i : Instr) (s : State) : (s.emitCommand i).host = s.host := rfl

@[simp] theorem State_emitCommand_modeAnswers (i : Instr) (s : State) : (s.emitCommand i).modeAnswers = s.modeAnswers := rfl

@[simp] theorem State_emitCommand_txAnswers (i : Instr) (s : State) : (s.emitCommand i).txAnswers = s.txAnswers := rfl

@[simp] theorem State_emitCommand_draws (i : Instr) (s : State) : (s.emitCommand i).draws = s.draws := rfl

@[simp] theorem State_loseLink_params (s : State) : (s.loseLink).params = s.params := rfl

@[simp] theorem State_loseLink_seq (s : State) : (s.loseLink).seq = s.seq := rfl

@[simp] theorem State_loseLink_status (s : State) : (s.loseLink).status = s.status := rfl

@[simp] theorem State_loseLink_errcode (s : State) : (s.loseLink).errcode = s.errcode := rfl

@[simp] theorem State_loseLink_linkMode (s : State) : (s.loseLink).linkMode = clearValid s.linkMode := rfl

@[simp] theorem State_loseLink_wrow (s : State) : (s.loseLink).wrow = s.wrow := rfl

@[simp] theorem State_loseLink_packIn (s : State) : (s.loseLink).packIn = s.packIn := rfl

@[simp] theorem State_loseLink_packOut (s : State) : (s.loseLink).packOut = s.packOut := rfl

@[simp] theorem State_loseLink_frame (s : State) : (s.loseLink).frame = s.frame := rfl

@[simp] theorem State_loseLink_raced (s : State) : (s.loseLink).raced = s.raced := rfl

@[simp] theorem State_loseLink_link (s : State) : (s.loseLink).link = Config.freeMode s.draws := rfl

@[simp] theorem State_loseLink_wire (s : State) : (s.loseLink).wire = s.wire := rfl

@[simp] theorem State_loseLink_trace (s : State) : (s.loseLink).trace = s.trace := rfl

@[simp] theorem State_loseLink_offers (s : State) : (s.loseLink).offers = s.offers := rfl

@[simp] theorem State_loseLink_host (s : State) : (s.loseLink).host = s.host := rfl

@[simp] theorem State_loseLink_modeAnswers (s : State) : (s.loseLink).modeAnswers = s.modeAnswers := rfl

@[simp] theorem State_loseLink_txAnswers (s : State) : (s.loseLink).txAnswers = s.txAnswers := rfl

@[simp] theorem State_loseLink_draws (s : State) : (s.loseLink).draws = s.draws + 1 := rfl

@[simp] theorem State_drivePackPort_params (b : Byte) (s : State) : (s.drivePackPort b).params = s.params := rfl

@[simp] theorem State_drivePackPort_seq (b : Byte) (s : State) : (s.drivePackPort b).seq = s.seq := rfl

@[simp] theorem State_drivePackPort_status (b : Byte) (s : State) : (s.drivePackPort b).status = s.status := rfl

@[simp] theorem State_drivePackPort_errcode (b : Byte) (s : State) : (s.drivePackPort b).errcode = s.errcode := rfl

@[simp] theorem State_drivePackPort_linkMode (b : Byte) (s : State) : (s.drivePackPort b).linkMode = s.linkMode := rfl

@[simp] theorem State_drivePackPort_wrow (b : Byte) (s : State) : (s.drivePackPort b).wrow = s.wrow := rfl

@[simp] theorem State_drivePackPort_packIn (b : Byte) (s : State) : (s.drivePackPort b).packIn = b := rfl

@[simp] theorem State_drivePackPort_packOut (b : Byte) (s : State) : (s.drivePackPort b).packOut = packWord b := rfl

@[simp] theorem State_drivePackPort_frame (b : Byte) (s : State) : (s.drivePackPort b).frame = s.frame := rfl

@[simp] theorem State_drivePackPort_raced (b : Byte) (s : State) : (s.drivePackPort b).raced = s.raced := rfl

@[simp] theorem State_drivePackPort_link (b : Byte) (s : State) : (s.drivePackPort b).link = s.link := rfl

@[simp] theorem State_drivePackPort_wire (b : Byte) (s : State) : (s.drivePackPort b).wire = s.wire := rfl

@[simp] theorem State_drivePackPort_trace (b : Byte) (s : State) : (s.drivePackPort b).trace = s.trace := rfl

@[simp] theorem State_drivePackPort_offers (b : Byte) (s : State) : (s.drivePackPort b).offers = s.offers := rfl

@[simp] theorem State_drivePackPort_host (b : Byte) (s : State) : (s.drivePackPort b).host = s.host := rfl

@[simp] theorem State_drivePackPort_modeAnswers (b : Byte) (s : State) : (s.drivePackPort b).modeAnswers = s.modeAnswers := rfl

@[simp] theorem State_drivePackPort_txAnswers (b : Byte) (s : State) : (s.drivePackPort b).txAnswers = s.txAnswers := rfl

@[simp] theorem State_drivePackPort_draws (b : Byte) (s : State) : (s.drivePackPort b).draws = s.draws := rfl

@[simp] theorem State_hostFrameWrite_params (a : BitVec 10) (b : Byte) (s : State) : (s.hostFrameWrite a b).params = s.params := rfl

@[simp] theorem State_hostFrameWrite_seq (a : BitVec 10) (b : Byte) (s : State) : (s.hostFrameWrite a b).seq = s.seq := rfl

@[simp] theorem State_hostFrameWrite_status (a : BitVec 10) (b : Byte) (s : State) : (s.hostFrameWrite a b).status = s.status := rfl

@[simp] theorem State_hostFrameWrite_errcode (a : BitVec 10) (b : Byte) (s : State) : (s.hostFrameWrite a b).errcode = s.errcode := rfl

@[simp] theorem State_hostFrameWrite_linkMode (a : BitVec 10) (b : Byte) (s : State) : (s.hostFrameWrite a b).linkMode = s.linkMode := rfl

@[simp] theorem State_hostFrameWrite_wrow (a : BitVec 10) (b : Byte) (s : State) : (s.hostFrameWrite a b).wrow = s.wrow := rfl

@[simp] theorem State_hostFrameWrite_packIn (a : BitVec 10) (b : Byte) (s : State) : (s.hostFrameWrite a b).packIn = s.packIn := rfl

@[simp] theorem State_hostFrameWrite_packOut (a : BitVec 10) (b : Byte) (s : State) : (s.hostFrameWrite a b).packOut = s.packOut := rfl

@[simp] theorem State_hostFrameWrite_frame (a : BitVec 10) (b : Byte) (s : State) : (s.hostFrameWrite a b).frame = Memory.write s.frame a.toNat b := rfl

@[simp] theorem State_hostFrameWrite_raced (a : BitVec 10) (b : Byte) (s : State) : (s.hostFrameWrite a b).raced = if s.seq.isBlit then (a.toNat, Memory.read s.frame a.toNat) :: s.raced else s.raced := rfl

@[simp] theorem State_hostFrameWrite_link (a : BitVec 10) (b : Byte) (s : State) : (s.hostFrameWrite a b).link = s.link := rfl

@[simp] theorem State_hostFrameWrite_wire (a : BitVec 10) (b : Byte) (s : State) : (s.hostFrameWrite a b).wire = s.wire := rfl

@[simp] theorem State_hostFrameWrite_trace (a : BitVec 10) (b : Byte) (s : State) : (s.hostFrameWrite a b).trace = s.trace := rfl

@[simp] theorem State_hostFrameWrite_offers (a : BitVec 10) (b : Byte) (s : State) : (s.hostFrameWrite a b).offers = s.offers := rfl

@[simp] theorem State_hostFrameWrite_host (a : BitVec 10) (b : Byte) (s : State) : (s.hostFrameWrite a b).host = s.host := rfl

@[simp] theorem State_hostFrameWrite_modeAnswers (a : BitVec 10) (b : Byte) (s : State) : (s.hostFrameWrite a b).modeAnswers = s.modeAnswers := rfl

@[simp] theorem State_hostFrameWrite_txAnswers (a : BitVec 10) (b : Byte) (s : State) : (s.hostFrameWrite a b).txAnswers = s.txAnswers := rfl

@[simp] theorem State_hostFrameWrite_draws (a : BitVec 10) (b : Byte) (s : State) : (s.hostFrameWrite a b).draws = s.draws := rfl

@[simp] theorem State_accept_params (op : Op) (a : Bool) (s : State) : (s.accept op a).params = s.params := rfl

@[simp] theorem State_accept_seq (op : Op) (a : Bool) (s : State) : (s.accept op a).seq = .run op a 0 (((prog op a)[0]?.map SeqStep.firstPhase).getD .enter) := rfl

@[simp] theorem State_accept_status (op : Op) (a : Bool) (s : State) : (s.accept op a).status = statusOf true resultNone := rfl

@[simp] theorem State_accept_errcode (op : Op) (a : Bool) (s : State) : (s.accept op a).errcode = 0 := rfl

@[simp] theorem State_accept_linkMode (op : Op) (a : Bool) (s : State) : (s.accept op a).linkMode = s.linkMode := rfl

@[simp] theorem State_accept_wrow (op : Op) (a : Bool) (s : State) : (s.accept op a).wrow = s.wrow := rfl

@[simp] theorem State_accept_packIn (op : Op) (a : Bool) (s : State) : (s.accept op a).packIn = s.packIn := rfl

@[simp] theorem State_accept_packOut (op : Op) (a : Bool) (s : State) : (s.accept op a).packOut = s.packOut := rfl

@[simp] theorem State_accept_frame (op : Op) (a : Bool) (s : State) : (s.accept op a).frame = s.frame := rfl

@[simp] theorem State_accept_raced (op : Op) (a : Bool) (s : State) : (s.accept op a).raced = s.raced := rfl

@[simp] theorem State_accept_link (op : Op) (a : Bool) (s : State) : (s.accept op a).link = s.link := rfl

@[simp] theorem State_accept_wire (op : Op) (a : Bool) (s : State) : (s.accept op a).wire = s.wire := rfl

@[simp] theorem State_accept_trace (op : Op) (a : Bool) (s : State) : (s.accept op a).trace = s.trace := rfl

@[simp] theorem State_accept_offers (op : Op) (a : Bool) (s : State) : (s.accept op a).offers = s.offers := rfl

@[simp] theorem State_accept_host (op : Op) (a : Bool) (s : State) : (s.accept op a).host = s.host := rfl

@[simp] theorem State_accept_modeAnswers (op : Op) (a : Bool) (s : State) : (s.accept op a).modeAnswers = s.modeAnswers := rfl

@[simp] theorem State_accept_txAnswers (op : Op) (a : Bool) (s : State) : (s.accept op a).txAnswers = s.txAnswers := rfl

@[simp] theorem State_accept_draws (op : Op) (a : Bool) (s : State) : (s.accept op a).draws = s.draws := rfl

@[simp] theorem State_leaveOperation_params (s : State) : (s.leaveOperation).params = s.params := by
  unfold State.leaveOperation; split <;> rfl

@[simp] theorem State_leaveOperation_seq (s : State) : (s.leaveOperation).seq = .ready := by
  unfold State.leaveOperation; split <;> rfl

@[simp] theorem State_leaveOperation_status (s : State) : (s.leaveOperation).status = s.status := by
  unfold State.leaveOperation; split <;> rfl

@[simp] theorem State_leaveOperation_errcode (s : State) : (s.leaveOperation).errcode = s.errcode := by
  unfold State.leaveOperation; split <;> rfl

@[simp] theorem State_leaveOperation_linkMode (s : State) : (s.leaveOperation).linkMode = s.linkMode := by
  unfold State.leaveOperation; split <;> rfl

@[simp] theorem State_leaveOperation_packIn (s : State) : (s.leaveOperation).packIn = s.packIn := by
  unfold State.leaveOperation; split <;> rfl

@[simp] theorem State_leaveOperation_packOut (s : State) : (s.leaveOperation).packOut = s.packOut := by
  unfold State.leaveOperation; split <;> rfl

@[simp] theorem State_leaveOperation_frame (s : State) : (s.leaveOperation).frame = s.frame := by
  unfold State.leaveOperation; split <;> rfl

@[simp] theorem State_leaveOperation_link (s : State) : (s.leaveOperation).link = s.link := by
  unfold State.leaveOperation; split <;> rfl

@[simp] theorem State_leaveOperation_wire (s : State) : (s.leaveOperation).wire = s.wire := by
  unfold State.leaveOperation; split <;> rfl

@[simp] theorem State_leaveOperation_trace (s : State) : (s.leaveOperation).trace = s.trace := by
  unfold State.leaveOperation; split <;> rfl

@[simp] theorem State_leaveOperation_offers (s : State) : (s.leaveOperation).offers = s.offers := by
  unfold State.leaveOperation; split <;> rfl

@[simp] theorem State_leaveOperation_host (s : State) : (s.leaveOperation).host = s.host := by
  unfold State.leaveOperation; split <;> rfl

@[simp] theorem State_leaveOperation_modeAnswers (s : State) : (s.leaveOperation).modeAnswers = s.modeAnswers := by
  unfold State.leaveOperation; split <;> rfl

@[simp] theorem State_leaveOperation_txAnswers (s : State) : (s.leaveOperation).txAnswers = s.txAnswers := by
  unfold State.leaveOperation; split <;> rfl

@[simp] theorem State_complete_params (s : State) : (s.complete).params = s.params := by
  simp [State.complete]

@[simp] theorem State_complete_seq (s : State) : (s.complete).seq = .ready := by
  simp [State.complete]

@[simp] theorem State_complete_status (s : State) : (s.complete).status = statusOf false resultOk := by
  simp [State.complete]

@[simp] theorem State_complete_errcode (s : State) : (s.complete).errcode = s.errcode := by
  simp [State.complete]

@[simp] theorem State_complete_linkMode (s : State) : (s.complete).linkMode = s.linkMode := by
  simp [State.complete]

@[simp] theorem State_complete_wrow (s : State) : (s.complete).wrow = s.leaveOperation.wrow := by
  simp [State.complete]

@[simp] theorem State_complete_packIn (s : State) : (s.complete).packIn = s.packIn := by
  simp [State.complete]

@[simp] theorem State_complete_packOut (s : State) : (s.complete).packOut = s.packOut := by
  simp [State.complete]

@[simp] theorem State_complete_frame (s : State) : (s.complete).frame = s.frame := by
  simp [State.complete]

@[simp] theorem State_complete_raced (s : State) : (s.complete).raced = s.leaveOperation.raced := by
  simp [State.complete]

@[simp] theorem State_complete_link (s : State) : (s.complete).link = s.link := by
  simp [State.complete]

@[simp] theorem State_complete_wire (s : State) : (s.complete).wire = s.wire := by
  simp [State.complete]

@[simp] theorem State_complete_trace (s : State) : (s.complete).trace = s.trace := by
  simp [State.complete]

@[simp] theorem State_complete_offers (s : State) : (s.complete).offers = s.offers := by
  simp [State.complete]

@[simp] theorem State_complete_host (s : State) : (s.complete).host = s.host := by
  simp [State.complete]

@[simp] theorem State_complete_modeAnswers (s : State) : (s.complete).modeAnswers = s.modeAnswers := by
  simp [State.complete]

@[simp] theorem State_complete_txAnswers (s : State) : (s.complete).txAnswers = s.txAnswers := by
  simp [State.complete]

@[simp] theorem State_complete_draws (s : State) : (s.complete).draws = s.leaveOperation.draws := by
  simp [State.complete]

@[simp] theorem State_abort_params (f : Failure) (s : State) : (s.abort f).params = s.params := by
  cases f <;> simp [State.abort, Failure.inBracket]

@[simp] theorem State_abort_seq (f : Failure) (s : State) : (s.abort f).seq = .ready := by
  cases f <;> simp [State.abort, Failure.inBracket]

@[simp] theorem State_abort_status (f : Failure) (s : State) : (s.abort f).status = statusOf false f.result := by
  cases f <;> simp [State.abort, Failure.inBracket]

@[simp] theorem State_abort_errcode (f : Failure) (s : State) : (s.abort f).errcode = f.errcode s.params := by
  cases f <;> simp [State.abort, Failure.inBracket]

@[simp] theorem State_abort_linkMode (f : Failure) (s : State) : (s.abort f).linkMode = if f.inBracket then clearValid s.linkMode else s.linkMode := by
  cases f <;> simp [State.abort, Failure.inBracket]

@[simp] theorem State_abort_wrow (f : Failure) (s : State) : (s.abort f).wrow = s.leaveOperation.wrow := by
  cases f <;> simp [State.abort, Failure.inBracket]

@[simp] theorem State_abort_packIn (f : Failure) (s : State) : (s.abort f).packIn = s.packIn := by
  cases f <;> simp [State.abort, Failure.inBracket]

@[simp] theorem State_abort_packOut (f : Failure) (s : State) : (s.abort f).packOut = s.packOut := by
  cases f <;> simp [State.abort, Failure.inBracket]

@[simp] theorem State_abort_frame (f : Failure) (s : State) : (s.abort f).frame = s.frame := by
  cases f <;> simp [State.abort, Failure.inBracket]

@[simp] theorem State_abort_raced (f : Failure) (s : State) : (s.abort f).raced = s.leaveOperation.raced := by
  cases f <;> simp [State.abort, Failure.inBracket]

@[simp] theorem State_abort_wire (f : Failure) (s : State) : (s.abort f).wire = s.wire := by
  cases f <;> simp [State.abort, Failure.inBracket]

@[simp] theorem State_abort_trace (f : Failure) (s : State) : (s.abort f).trace = s.trace := by
  cases f <;> simp [State.abort, Failure.inBracket]

@[simp] theorem State_abort_offers (f : Failure) (s : State) : (s.abort f).offers = s.offers := by
  cases f <;> simp [State.abort, Failure.inBracket]

@[simp] theorem State_abort_host (f : Failure) (s : State) : (s.abort f).host = s.host := by
  cases f <;> simp [State.abort, Failure.inBracket]

@[simp] theorem State_abort_modeAnswers (f : Failure) (s : State) : (s.abort f).modeAnswers = s.modeAnswers := by
  cases f <;> simp [State.abort, Failure.inBracket]

@[simp] theorem State_abort_txAnswers (f : Failure) (s : State) : (s.abort f).txAnswers = s.txAnswers := by
  cases f <;> simp [State.abort, Failure.inBracket]

@[simp] theorem State_toPhase_params (ph : Phase) (s : State) : (s.toPhase ph).params = s.params := by
  unfold State.toPhase; split <;> rfl

@[simp] theorem State_toPhase_status (ph : Phase) (s : State) : (s.toPhase ph).status = s.status := by
  unfold State.toPhase; split <;> rfl

@[simp] theorem State_toPhase_errcode (ph : Phase) (s : State) : (s.toPhase ph).errcode = s.errcode := by
  unfold State.toPhase; split <;> rfl

@[simp] theorem State_toPhase_linkMode (ph : Phase) (s : State) : (s.toPhase ph).linkMode = s.linkMode := by
  unfold State.toPhase; split <;> rfl

@[simp] theorem State_toPhase_wrow (ph : Phase) (s : State) : (s.toPhase ph).wrow = s.wrow := by
  unfold State.toPhase; split <;> rfl

@[simp] theorem State_toPhase_packIn (ph : Phase) (s : State) : (s.toPhase ph).packIn = s.packIn := by
  unfold State.toPhase; split <;> rfl

@[simp] theorem State_toPhase_packOut (ph : Phase) (s : State) : (s.toPhase ph).packOut = s.packOut := by
  unfold State.toPhase; split <;> rfl

@[simp] theorem State_toPhase_frame (ph : Phase) (s : State) : (s.toPhase ph).frame = s.frame := by
  unfold State.toPhase; split <;> rfl

@[simp] theorem State_toPhase_raced (ph : Phase) (s : State) : (s.toPhase ph).raced = s.raced := by
  unfold State.toPhase; split <;> rfl

@[simp] theorem State_toPhase_link (ph : Phase) (s : State) : (s.toPhase ph).link = s.link := by
  unfold State.toPhase; split <;> rfl

@[simp] theorem State_toPhase_wire (ph : Phase) (s : State) : (s.toPhase ph).wire = s.wire := by
  unfold State.toPhase; split <;> rfl

@[simp] theorem State_toPhase_trace (ph : Phase) (s : State) : (s.toPhase ph).trace = s.trace := by
  unfold State.toPhase; split <;> rfl

@[simp] theorem State_toPhase_offers (ph : Phase) (s : State) : (s.toPhase ph).offers = s.offers := by
  unfold State.toPhase; split <;> rfl

@[simp] theorem State_toPhase_host (ph : Phase) (s : State) : (s.toPhase ph).host = s.host := by
  unfold State.toPhase; split <;> rfl

@[simp] theorem State_toPhase_modeAnswers (ph : Phase) (s : State) : (s.toPhase ph).modeAnswers = s.modeAnswers := by
  unfold State.toPhase; split <;> rfl

@[simp] theorem State_toPhase_txAnswers (ph : Phase) (s : State) : (s.toPhase ph).txAnswers = s.txAnswers := by
  unfold State.toPhase; split <;> rfl

@[simp] theorem State_toPhase_draws (ph : Phase) (s : State) : (s.toPhase ph).draws = s.draws := by
  unfold State.toPhase; split <;> rfl

@[simp] theorem State_packPhase_params (r : Nat) (s : State) : (s.packPhase r).params = s.params := by
  simp [State.packPhase, State.toPhase] <;> split <;> rfl

@[simp] theorem State_packPhase_seq (r : Nat) (s : State) : (s.packPhase r).seq = (s.toPhase .enter).seq := by
  simp [State.packPhase, State.toPhase] <;> split <;> rfl

@[simp] theorem State_packPhase_status (r : Nat) (s : State) : (s.packPhase r).status = s.status := by
  simp [State.packPhase, State.toPhase] <;> split <;> rfl

@[simp] theorem State_packPhase_errcode (r : Nat) (s : State) : (s.packPhase r).errcode = s.errcode := by
  simp [State.packPhase, State.toPhase] <;> split <;> rfl

@[simp] theorem State_packPhase_linkMode (r : Nat) (s : State) : (s.packPhase r).linkMode = s.linkMode := by
  simp [State.packPhase, State.toPhase] <;> split <;> rfl

@[simp] theorem State_packPhase_wrow (r : Nat) (s : State) : (s.packPhase r).wrow = packRow (s.frameRow r) := by
  simp [State.packPhase, State.toPhase] <;> split <;> rfl

@[simp] theorem State_packPhase_packIn (r : Nat) (s : State) : (s.packPhase r).packIn = s.packIn := by
  simp [State.packPhase, State.toPhase] <;> split <;> rfl

@[simp] theorem State_packPhase_packOut (r : Nat) (s : State) : (s.packPhase r).packOut = s.packOut := by
  simp [State.packPhase, State.toPhase] <;> split <;> rfl

@[simp] theorem State_packPhase_frame (r : Nat) (s : State) : (s.packPhase r).frame = s.frame := by
  simp [State.packPhase, State.toPhase] <;> split <;> rfl

@[simp] theorem State_packPhase_raced (r : Nat) (s : State) : (s.packPhase r).raced = s.raced := by
  simp [State.packPhase, State.toPhase] <;> split <;> rfl

@[simp] theorem State_packPhase_link (r : Nat) (s : State) : (s.packPhase r).link = s.link := by
  simp [State.packPhase, State.toPhase] <;> split <;> rfl

@[simp] theorem State_packPhase_wire (r : Nat) (s : State) : (s.packPhase r).wire = s.wire := by
  simp [State.packPhase, State.toPhase] <;> split <;> rfl

@[simp] theorem State_packPhase_trace (r : Nat) (s : State) : (s.packPhase r).trace = s.trace := by
  simp [State.packPhase, State.toPhase] <;> split <;> rfl

@[simp] theorem State_packPhase_offers (r : Nat) (s : State) : (s.packPhase r).offers = s.offers := by
  simp [State.packPhase, State.toPhase] <;> split <;> rfl

@[simp] theorem State_packPhase_host (r : Nat) (s : State) : (s.packPhase r).host = s.host := by
  simp [State.packPhase, State.toPhase] <;> split <;> rfl

@[simp] theorem State_packPhase_modeAnswers (r : Nat) (s : State) : (s.packPhase r).modeAnswers = s.modeAnswers := by
  simp [State.packPhase, State.toPhase] <;> split <;> rfl

@[simp] theorem State_packPhase_txAnswers (r : Nat) (s : State) : (s.packPhase r).txAnswers = s.txAnswers := by
  simp [State.packPhase, State.toPhase] <;> split <;> rfl

@[simp] theorem State_packPhase_draws (r : Nat) (s : State) : (s.packPhase r).draws = s.draws + 16 := by
  simp [State.packPhase, State.toPhase] <;> split <;> rfl

@[simp] theorem State_blockReset_params (bs : List Byte) (s : State) : (s.blockReset bs).params = s.params := rfl

@[simp] theorem State_blockReset_seq (bs : List Byte) (s : State) : (s.blockReset bs).seq = .ready := rfl

@[simp] theorem State_blockReset_status (bs : List Byte) (s : State) : (s.blockReset bs).status = statusOf false resultNone := rfl

@[simp] theorem State_blockReset_errcode (bs : List Byte) (s : State) : (s.blockReset bs).errcode = 0 := rfl

@[simp] theorem State_blockReset_linkMode (bs : List Byte) (s : State) : (s.blockReset bs).linkMode = 0b000#3 := rfl

@[simp] theorem State_blockReset_wrow (bs : List Byte) (s : State) : (s.blockReset bs).wrow = freeRow s.draws := rfl

@[simp] theorem State_blockReset_packIn (bs : List Byte) (s : State) : (s.blockReset bs).packIn = s.packIn := rfl

@[simp] theorem State_blockReset_packOut (bs : List Byte) (s : State) : (s.blockReset bs).packOut = s.packOut := rfl

@[simp] theorem State_blockReset_frame (bs : List Byte) (s : State) : (s.blockReset bs).frame = s.frame := rfl

@[simp] theorem State_blockReset_raced (bs : List Byte) (s : State) : (s.blockReset bs).raced = [] := rfl

@[simp] theorem State_blockReset_trace (bs : List Byte) (s : State) : (s.blockReset bs).trace = s.trace := rfl

@[simp] theorem State_blockReset_offers (bs : List Byte) (s : State) : (s.blockReset bs).offers = s.offers := rfl

@[simp] theorem State_blockReset_host (bs : List Byte) (s : State) : (s.blockReset bs).host = s.host := rfl

@[simp] theorem State_blockReset_modeAnswers (bs : List Byte) (s : State) : (s.blockReset bs).modeAnswers = s.modeAnswers := rfl

@[simp] theorem State_blockReset_txAnswers (bs : List Byte) (s : State) : (s.blockReset bs).txAnswers = s.txAnswers := rfl

theorem State_blockReset_wire (bs : List Byte) (s : State) : (s.blockReset bs).wire =
    if s.seq ≠ .ready ∧ Config.freeChoice (s.draws + 2) % 2 = 1 then (s.emit bs).wire else s.wire := rfl

theorem State_blockReset_link (bs : List Byte) (s : State) : (s.blockReset bs).link =
    if s.seq = .ready then s.link else Config.freeMode (s.draws + 1) := rfl

@[simp] theorem State_blockReset_draws (bs : List Byte) (s : State) : (s.blockReset bs).draws = s.draws + 3 := rfl

end Sys2Proof.Machine
end

