-- ==== Sys2Proof/Laws/Ops.lean ====
section
/-! SUPPORT. What each shared operation can do, said once. -/

namespace Sys2Proof.Machine

/-- `toPhase` moves within the step of a position RUN. -/
@[simp] theorem toPhase_run {s : State} {op : Op} {a : Bool} {i : Nat} {ph : Phase} (ph' : Phase)
    (h : s.seq = .run op a i ph) : (s.toPhase ph').seq = .run op a i ph' := by
  simp [State.toPhase, h]

/-- `toPhase` as an update of `seq`. -/
theorem toPhase_eq {s : State} {op : Op} {a : Bool} {i : Nat} {ph : Phase} (ph' : Phase)
    (h : s.seq = .run op a i ph) : s.toPhase ph' = { s with seq := .run op a i ph' } := by
  simp [State.toPhase, h]

/-- A step done is followed by the next step of the list, or the operation completes. -/
theorem stepDone_cases {s : State} {op : Op} {a : Bool} {i : Nat} {ph : Phase} (h : s.seq = .run op a i ph) :
    (∃ st, (prog op a)[i + 1]? = some st ∧ s.stepDone = { s with seq := .run op a (i + 1) st.firstPhase }) ∨
      ((prog op a)[i + 1]? = none ∧ s.stepDone = s.complete) := by
  unfold State.stepDone
  rw [h]
  dsimp only
  cases hst : (prog op a)[i + 1]? with
  | none => exact .inr ⟨rfl, rfl⟩
  | some st => exact .inl ⟨st, rfl, rfl⟩

/-- A ModeEnter waits for its answer, goes on, or aborts. -/
theorem modeEnter_cases (m : Mode) (k : State → State) (s : State) :
    (s.modeAnswers = [] ∧ s.modeEnter m k = s) ∨
      (∃ rest, s.modeAnswers = .ok :: rest ∧
        s.modeEnter m k =
          k { s.log (.modeEnter m .ok) with modeAnswers := rest, linkMode := linkModeOf m, link := m }) ∨
      (∃ c rest, s.modeAnswers = .err c :: rest ∧
        s.modeEnter m k = State.abort (.mode c) { s.log (.modeEnter m (.err c)) with modeAnswers := rest }) := by
  unfold State.modeEnter
  split
  · exact .inl ⟨‹_›, rfl⟩
  · exact .inr (.inl ⟨_, ‹_›, rfl⟩)
  · exact .inr (.inr ⟨_, _, ‹_›, rfl⟩)

/-- A checked write waits for its answer, goes on, or aborts. -/
theorem writeChecked_cases (bs : List Byte) (k : State → State) (s : State) :
    (s.txAnswers = [] ∧ s.writeChecked bs k = s) ∨
      (∃ r rest, s.txAnswers = r :: rest ∧ writeCheck bs.length r = none ∧
        s.writeChecked bs k = k { (s.emit bs).log (.txWrite bs r) with txAnswers := rest }) ∨
      (∃ r rest f, s.txAnswers = r :: rest ∧ writeCheck bs.length r = some f ∧
        s.writeChecked bs k = State.abort f { (s.emit bs).log (.txWrite bs r) with txAnswers := rest }) := by
  unfold State.writeChecked
  split
  · exact .inl ⟨‹_›, rfl⟩
  · rename_i r rest hr
    cases hw : writeCheck bs.length r with
    | none => exact .inr (.inl ⟨r, rest, hr, hw, rfl⟩)
    | some f => exact .inr (.inr ⟨r, rest, f, hr, hw, rfl⟩)

/-- The write check fails only with ERR_WRITE_FAILED or ERR_TRANSPORT (40_mode R104). -/
theorem writeCheck_cases (len : Nat) (r : TxAnswer) :
    (∃ n, r = .ok n ∧ len ≤ n ∧ writeCheck len r = none) ∨
      (∃ n, r = .ok n ∧ n < len ∧ writeCheck len r = some .writeFailed) ∨
      (∃ c, r = .err c ∧ writeCheck len r = some (.transport c)) := by
  cases r with
  | err c => exact .inr (.inr ⟨c, rfl, rfl⟩)
  | ok n =>
    by_cases h : n < len
    · exact .inr (.inl ⟨n, rfl, h, by simp [writeCheck, h]⟩)
    · exact .inl ⟨n, rfl, by omega, by simp [writeCheck, h]⟩

/-- WROW with unspecified contents has its 64 bytes. -/
@[simp] theorem freeRow_length (k : Nat) : (freeRow k).length = 64 := by simp [freeRow]

/-- Leaving an operation keeps WROW, or leaves 64 free bytes in it. -/
theorem leaveOperation_wrow (s : State) : s.leaveOperation.wrow = s.wrow ∨ s.leaveOperation.wrow = freeRow s.draws := by
  unfold State.leaveOperation
  split
  · exact .inr rfl
  · exact .inl rfl

/-- Leaving an operation touches seq, WROW, the races and the counter only. -/
theorem leaveOperation_eq (s : State) :
    s.leaveOperation = { s with
      seq := .ready
      raced := s.leaveOperation.raced
      wrow := s.leaveOperation.wrow
      draws := s.leaveOperation.draws } := by
  unfold State.leaveOperation
  split <;> rfl

/-- Leaving an operation that is not BLIT touches seq only. -/
theorem leaveOperation_notBlit {s : State} (h : s.seq.isBlit = false) : s.leaveOperation = { s with seq := .ready } := by
  unfold State.leaveOperation
  split
  · rename_i e
    simp [e, Position.isBlit] at h
  · rfl

/-- An abort inside a bracket, as an update (60_exceptions R205). -/
theorem abort_inBracket {f : Failure} (hf : f.inBracket = true) (s : State) :
    s.abort f = { s with
      seq := .ready
      status := statusOf false f.result
      errcode := f.errcode s.params
      linkMode := clearValid s.linkMode
      link := (s.abort f).link
      raced := s.leaveOperation.raced
      wrow := s.leaveOperation.wrow
      draws := (s.abort f).draws } := by
  unfold State.abort
  rw [if_pos hf]
  conv => lhs; rw [leaveOperation_eq]
  rfl

/-- An abort on a reserved word, outside any bracket, as an update (60_exceptions R205). -/
theorem abort_illegalOp (s : State) :
    s.abort .illegalOp = { s with
      seq := .ready
      status := statusOf false (Failure.result .illegalOp)
      errcode := 0
      raced := s.leaveOperation.raced
      wrow := s.leaveOperation.wrow
      draws := s.leaveOperation.draws } := by
  unfold State.abort
  rw [if_neg (by decide)]
  conv => lhs; rw [leaveOperation_eq]
  rfl

/-- Completion, as an update (42_display R152). -/
theorem complete_eq (s : State) :
    s.complete = { s with
      seq := .ready
      status := statusOf false resultOk
      raced := s.leaveOperation.raced
      wrow := s.leaveOperation.wrow
      draws := s.leaveOperation.draws } := by
  unfold State.complete
  conv => lhs; rw [leaveOperation_eq]

/-- Leaving an operation ends every race, where only a BLIT has any. -/
theorem leaveOperation_raced (s : State) (h : s.raced = [] ∨ s.seq.isBlit = true) : s.leaveOperation.raced = [] := by
  rcases h with h | h
  · unfold State.leaveOperation
    split
    · rfl
    · exact h
  · unfold State.leaveOperation
    split
    · rfl
    · rename_i hne
      cases hs : s.seq with
      | ready => simp [hs, Position.isBlit] at h
      | run op a i ph =>
        cases op <;> simp [hs, Position.isBlit] at h
        exact absurd hs (hne _ _ _)

/-- Every operation's list opens with a bracket. -/
theorem prog_first (op : Op) (a : Bool) :
    ((prog op a)[0]?.map SeqStep.firstPhase).getD .enter = .enter := by
  cases op <;> rfl

end Sys2Proof.Machine
end

