-- ==== Sys2Proof/Laws/PerInstr.lean ====
section
/-! SUPPORT. One lemma per constructor of Instr about its encoding: a wire command is its opcode byte and exactly its
operand bytes, from which the command is built again (30_encoding R80, R86). -/

namespace Sys2Proof.Laws.WireForm

/-- A wire command's words are the opcode byte of a name and that name's operand bytes, and those make the command. -/
def Statement (i : Instr) : Prop :=
  i.format = .wire → ∃ (n : WireName) (ops : List Byte),
    ops.length = n.operandCount ∧ n.build ops = some i ∧ ∀ o : WireOpc, encode o i = o.code n :: ops

theorem init : Statement .init := fun h => nomatch h

theorem clear : Statement .clear := fun h => nomatch h

theorem seton (a : Bool) : Statement (.seton a) := fun h => nomatch h

theorem setinv (a : Bool) : Statement (.setinv a) := fun h => nomatch h

theorem blit : Statement .blit := fun h => nomatch h

theorem reserved (w : Byte) : Statement (.reserved w) := fun h => nomatch h

theorem pack (b : Byte) : Statement (.pack b) := fun h => nomatch h

theorem opcDisplayOff : Statement .opcDisplayOff := fun _ => ⟨.displayOff, [], rfl, rfl, fun _ => rfl⟩

theorem opcDisplayOn : Statement .opcDisplayOn := fun _ => ⟨.displayOn, [], rfl, rfl, fun _ => rfl⟩

theorem opcSetClock (v : Byte) : Statement (.opcSetClock v) := fun _ => ⟨.setClock, [v], rfl, rfl, fun _ => rfl⟩

theorem opcSetMux (v : Byte) : Statement (.opcSetMux v) := fun _ => ⟨.setMux, [v], rfl, rfl, fun _ => rfl⟩

theorem opcSetOffset (v : Byte) : Statement (.opcSetOffset v) := fun _ => ⟨.setOffset, [v], rfl, rfl, fun _ => rfl⟩

theorem opcSetStartLine (v : Byte) : Statement (.opcSetStartLine v) := fun _ => ⟨.setStartLine, [v], rfl, rfl, fun _ => rfl⟩

theorem opcMasterConfig (v : Byte) : Statement (.opcMasterConfig v) := fun _ => ⟨.masterConfig, [v], rfl, rfl, fun _ => rfl⟩

theorem opcSetRemap (v : Byte) : Statement (.opcSetRemap v) := fun _ => ⟨.setRemap, [v], rfl, rfl, fun _ => rfl⟩

theorem opcSetCurrentFull : Statement .opcSetCurrentFull := fun _ => ⟨.setCurrentFull, [], rfl, rfl, fun _ => rfl⟩

theorem opcSetGrayTable (d0 d1 d2 d3 d4 d5 d6 d7 : Byte) : Statement (.opcSetGrayTable d0 d1 d2 d3 d4 d5 d6 d7) := fun _ => ⟨.setGrayTable, [d0, d1, d2, d3, d4, d5, d6, d7], rfl, rfl, fun _ => rfl⟩

theorem opcSetContrast (v : Byte) : Statement (.opcSetContrast v) := fun _ => ⟨.setContrast, [v], rfl, rfl, fun _ => rfl⟩

theorem opcSetRowPeriod (v : Byte) : Statement (.opcSetRowPeriod v) := fun _ => ⟨.setRowPeriod, [v], rfl, rfl, fun _ => rfl⟩

theorem opcSetPhaseLen (v : Byte) : Statement (.opcSetPhaseLen v) := fun _ => ⟨.setPhaseLen, [v], rfl, rfl, fun _ => rfl⟩

theorem opcSetPrechargeLevel (v : Byte) : Statement (.opcSetPrechargeLevel v) := fun _ => ⟨.setPrechargeLevel, [v], rfl, rfl, fun _ => rfl⟩

theorem opcSetPrechargeEnable (v : Byte) : Statement (.opcSetPrechargeEnable v) := fun _ => ⟨.setPrechargeEnable, [v], rfl, rfl, fun _ => rfl⟩

theorem opcSetVcomh (v : Byte) : Statement (.opcSetVcomh v) := fun _ => ⟨.setVcomh, [v], rfl, rfl, fun _ => rfl⟩

theorem opcSetVsl (v : Byte) : Statement (.opcSetVsl v) := fun _ => ⟨.setVsl, [v], rfl, rfl, fun _ => rfl⟩

theorem opcNormalDisplay : Statement .opcNormalDisplay := fun _ => ⟨.normalDisplay, [], rfl, rfl, fun _ => rfl⟩

theorem opcInvertDisplay : Statement .opcInvertDisplay := fun _ => ⟨.invertDisplay, [], rfl, rfl, fun _ => rfl⟩

theorem opcGfxAccel (v : Byte) : Statement (.opcGfxAccel v) := fun _ => ⟨.gfxAccel, [v], rfl, rfl, fun _ => rfl⟩

theorem opcDrawRect (d0 d1 d2 d3 d4 : Byte) : Statement (.opcDrawRect d0 d1 d2 d3 d4) := fun _ => ⟨.drawRect, [d0, d1, d2, d3, d4], rfl, rfl, fun _ => rfl⟩

theorem opcSetColAddr (lo hi : Byte) : Statement (.opcSetColAddr lo hi) := fun _ => ⟨.setColAddr, [lo, hi], rfl, rfl, fun _ => rfl⟩

theorem opcSetRowAddr (lo hi : Byte) : Statement (.opcSetRowAddr lo hi) := fun _ => ⟨.setRowAddr, [lo, hi], rfl, rfl, fun _ => rfl⟩

end Sys2Proof.Laws.WireForm
end

