-- ==== Sys2Proof/Laws/Step.lean ====
section
/-! SUPPORT. What a step can do, said once. -/

namespace Sys2Proof.Machine

/-- While an operation is in flight, its instruction runs its next phase. -/
theorem exec_inFlight {s : State} {op : Op} {a : Bool} {i : Nat} {ph : Phase} (h : s.seq = .run op a i ph) :
    exec (op.instr a) s = s.runPhase op a i ph := by
  cases op <;> simp [Op.instr, exec, execInit, execClear, execSeton, execSetinv, execBlit, State.runOp, h]

/-- Every OPREQ word decodes to an operation's instruction or to itself as a reserved word. -/
theorem decode_cases (w : Byte) :
    (∃ (op : Op) (a : Bool), decode w = op.instr a ∧ (op.takesArg = false → a = false)) ∨
      decode w = .reserved w := by
  unfold decode
  split
  · split
    · exact .inl ⟨.init, false, rfl, fun _ => rfl⟩
    · exact .inl ⟨.clear, false, rfl, fun _ => rfl⟩
    · exact .inl ⟨.seton, argField w, rfl, by simp [Op.takesArg]⟩
    · exact .inl ⟨.setinv, argField w, rfl, by simp [Op.takesArg]⟩
    · exact .inl ⟨.blit, false, rfl, fun _ => rfl⟩
    · exact .inr rfl
  · exact .inr rfl

/-- At READY an operation's instruction is accepted. -/
theorem exec_ready {s : State} {op : Op} {a : Bool} (h : s.seq = .ready)
    (ha : op.takesArg = false → a = false) :
    exec (op.instr a) s = .next (s.accept op a) := by
  cases op <;> simp [Op.takesArg] at ha <;>
    simp [Op.instr, exec, execInit, execClear, execSeton, execSetinv, execBlit, State.runOp, h, ha]

/-- What the block's move can do. -/
inductive BlockMove (s t : State) : Prop
  | waits (hs : s.seq = .ready) (ho : s.offers = []) (ht : t = s)
  | accepts (w : Byte) (ws : List Byte) (op : Op) (a : Bool) (hs : s.seq = .ready) (ho : s.offers = w :: ws)
      (hd : decode w = op.instr a) (ha : op.takesArg = false → a = false)
      (ht : t = State.accept op a { s with offers := ws })
  | reserved (w : Byte) (ws : List Byte) (hs : s.seq = .ready) (ho : s.offers = w :: ws)
      (hd : decode w = .reserved w) (ht : t = State.abort .illegalOp { s with offers := ws })
  | phase (op : Op) (a : Bool) (i : Nat) (ph : Phase) (st : SeqStep) (hs : s.seq = .run op a i ph)
      (hst : (prog op a)[i]? = some st) (ht : s.phaseOf st ph = .next t)

/-- What a step can do: the block's move, after the host has passed, or one move of the host. -/
inductive StepMove (s t : State) : Prop
  | block (h : s.host = []) (hb : BlockMove s t)
  | letRun (hs : List HostMove) (h : s.host = .letRun :: hs) (hb : BlockMove { s with host := hs } t)
  | offer (w : Byte) (hs : List HostMove) (h : s.host = .offer w :: hs)
      (ht : t = { s with host := hs, offers := s.offers ++ [w] })
  | blockReset (hs : List HostMove) (h : s.host = .blockReset :: hs)
      (ht : t = State.blockReset s.outstandingWrite { s with host := hs })
  | packIn (b : Byte) (hs : List HostMove) (h : s.host = .packIn b :: hs)
      (ht : t = State.drivePackPort b { s with host := hs })
  | frameWrite (a : BitVec 10) (b : Byte) (hs : List HostMove) (h : s.host = .frameWrite a b :: hs)
      (ht : t = State.hostFrameWrite a b { s with host := hs })
  | writeStatus (v : Byte) (hs : List HostMove) (h : s.host = .writeStatus v :: hs) (ht : t = { s with host := hs })

theorem blockTurn_run {s : State} {op : Op} {a : Bool} {i : Nat} {ph : Phase} (hs : s.seq = .run op a i ph) :
    s.blockTurn = .exec (op.instr a) s := by
  simp [State.blockTurn, hs]

theorem blockTurn_offer {s : State} {w : Byte} {ws : List Byte} (hs : s.seq = .ready) (ho : s.offers = w :: ws) :
    s.blockTurn = .exec (decode w) { s with offers := ws } := by
  unfold State.blockTurn
  rw [hs, ho]

theorem blockTurn_idle {s : State} (hs : s.seq = .ready) (ho : s.offers = []) : s.blockTurn = .done s := by
  unfold State.blockTurn
  rw [hs, ho]

/-- With no move of the host the turn is the block's. -/
theorem turn_quiet {s : State} (h : s.host = []) : s.turn = s.blockTurn := by
  unfold State.turn
  split <;> simp_all

/-- Where the block moves next from `u`, the turn is the block's in `u`. -/
theorem turn_blockNext {s u : State} (h : BlockNext s u) : s.turn = u.blockTurn := by
  obtain ⟨h, rfl⟩ | ⟨hs, h, rfl⟩ := h
  · exact turn_quiet h
  · simp only [State.turn, h]

/-- The block's next move starts in the same state, but for the host's list of moves. -/
theorem blockNext_eq {s u : State} (h : BlockNext s u) : u = { s with host := u.host } := by
  obtain ⟨_, rfl⟩ | ⟨_, _, rfl⟩ := h <;> rfl

/-- A step of an operation in flight is its instruction's. -/
theorem step_inFlight {s : State} {op : Op} {a : Bool} {i : Nat} {ph : Phase} (h : s.host = [])
    (hs : s.seq = .run op a i ph) : step s = exec (op.instr a) s := by
  rw [step, turn_quiet h, blockTurn_run hs]

/-- A step that takes a word from OPREQ is the decoded instruction's. -/
theorem step_offer {s : State} {w : Byte} {ws : List Byte} (h : s.host = []) (hs : s.seq = .ready)
    (ho : s.offers = w :: ws) : step s = exec (decode w) { s with offers := ws } := by
  rw [step, turn_quiet h, blockTurn_offer hs ho]

theorem blockTurn_cases {s t : State}
    (h : (match s.blockTurn with
      | .exec i u => exec i u
      | .done u => .next u) = (.next t : Result)) : BlockMove s t := by
  cases hs : s.seq with
  | run op a i ph =>
    rw [blockTurn_run hs] at h
    dsimp only at h
    rw [exec_inFlight hs] at h
    unfold State.runPhase at h
    cases hst : (prog op a)[i]? with
    | none => simp [hst] at h
    | some st =>
      simp only [hst] at h
      exact .phase op a i ph st hs hst h
  | ready =>
    cases ho : s.offers with
    | nil =>
      rw [blockTurn_idle hs ho] at h
      injection h with h
      exact .waits hs ho h.symm
    | cons w ws =>
      rw [blockTurn_offer hs ho] at h
      dsimp only at h
      rcases decode_cases w with ⟨op, a, hd, ha⟩ | hd
      · rw [hd, exec_ready (s := { s with offers := ws }) hs ha] at h
        injection h with h
        exact .accepts w ws op a hs ho hd ha h.symm
      · have e : exec (.reserved w) { s with offers := ws } = .next (State.abort .illegalOp { s with offers := ws }) := by
          simp only [exec, execReserved, hs]
        rw [hd, e] at h
        injection h with h
        exact .reserved w ws hs ho hd h.symm

/-- The inversion of a step. -/
theorem step_cases {s t : State} (h : step s = .next t) : StepMove s t := by
  unfold step State.turn at h
  cases hh : s.host with
  | nil =>
    simp only [hh] at h
    exact .block hh (blockTurn_cases h)
  | cons m hs =>
    cases m <;> simp only [hh] at h
    case letRun => exact .letRun hs hh (blockTurn_cases h)
    all_goals first | injection h with h | skip
    case offer w => exact .offer w hs hh h.symm
    case blockReset => exact .blockReset hs hh h.symm
    case packIn b => exact .packIn b hs hh h.symm
    case frameWrite a b => exact .frameWrite a b hs hh h.symm
    case writeStatus v => exact .writeStatus v hs hh h.symm

/-- What a phase can do: one of the five forms below, by its step and phase. -/
inductive PhaseMove (st : SeqStep) (ph : Phase) (s t : State) : Prop
  | enter (m : Mode) (hm : st.mode? = some m) (hp : ph = .enter)
      (ht : t = s.modeEnter m (State.toPhase .body))
  | write (m : Mode) (hm : st.mode? = some m) (hp : ph = .body) (hk : ∀ m p, st ≠ .hold m p)
      (ht : t = s.writeChecked (st.buffer s) (State.toPhase .exit))
  | hold (m : Mode) (p : DelayParam) (hst : st = .hold m p) (hp : ph = .body)
      (ht : t = s.delay p (State.toPhase .exit))
  | exit (m : Mode) (hm : st.mode? = some m) (hp : ph = .exit) (ht : t = s.modeEnter .idle State.stepDone)
  | wait (p : DelayParam) (hst : st = .wait p) (hp : ph = .delay) (ht : t = s.delay p State.stepDone)
  | pack (r : Nat) (hst : st = .row r) (hp : ph = .pack) (ht : t = s.packPhase r)

theorem phaseOf_cases {st : SeqStep} {ph : Phase} {s t : State} (h : s.phaseOf st ph = .next t) :
    PhaseMove st ph s t := by
  cases st <;> cases ph <;> simp only [State.phaseOf] at h <;> first | (injection h with h) | cases h
  case tx.enter m cmds => exact .enter m rfl rfl h.symm
  case tx.body m cmds => exact .write m rfl rfl (by simp) h.symm
  case tx.exit m cmds => exact .exit m rfl rfl h.symm
  case hold.enter m p => exact .enter m rfl rfl h.symm
  case hold.body m p => exact .hold m p rfl rfl h.symm
  case hold.exit m p => exact .exit m rfl rfl h.symm
  case wait.delay p => exact .wait p rfl rfl h.symm
  case row.enter r => exact .enter .data rfl rfl h.symm
  case row.body r => exact .write .data rfl rfl (by simp) h.symm
  case row.exit r => exact .exit .data rfl rfl h.symm
  case row.pack r => exact .pack r rfl rfl h.symm

/-- An ENTER phase, run by the instruction in flight. -/
theorem exec_enter {s : State} {op : Op} {a : Bool} {i : Nat} {st : SeqStep} {m : Mode}
    (hs : s.seq = .run op a i .enter) (hst : (prog op a)[i]? = some st) (hm : st.mode? = some m) :
    exec (op.instr a) s = .next (s.modeEnter m (State.toPhase .body)) := by
  rw [exec_inFlight hs, State.runPhase, hst]
  cases st <;> simp [SeqStep.mode?] at hm <;> subst hm <;> rfl

/-- An EXIT phase, run by the instruction in flight. -/
theorem exec_exit {s : State} {op : Op} {a : Bool} {i : Nat} {st : SeqStep} {m : Mode}
    (hs : s.seq = .run op a i .exit) (hst : (prog op a)[i]? = some st) (hm : st.mode? = some m) :
    exec (op.instr a) s = .next (s.modeEnter .idle State.stepDone) := by
  rw [exec_inFlight hs, State.runPhase, hst]
  cases st <;> simp [SeqStep.mode?] at hm <;> rfl

end Sys2Proof.Machine
end

