-- ==== Sys2Proof/Laws/Phases.lean ====
section
/-! SUPPORT. What an operation's step list holds, and what one phase of it can do to the state. -/

namespace Sys2Proof.Machine

/-- The steps an operation's list has, each with its place (42_display R150). -/
inductive ProgStep (op : Op) (a : Bool) (i : Nat) : SeqStep → Prop
  | hold (ho : op = .init) (hi : i = 0) : ProgStep op a i (.hold .reset .tResetHold)
  | wait (ho : op = .init) (hi : i = 1) (st : SeqStep) (hn : (prog op a)[i + 1]? = some st) :
      ProgStep op a i (.wait .tResetSettle)
  | tx (cmds : List Instr) (hc : cmds ∈ commandSequences) (hi : i = 0 ∨ op = .init ∧ i = 2) :
      ProgStep op a i (.tx .command cmds)
  | row (r : Nat) (ho : op = .blit) (hr : r < 64) (hi : i = r + 1) : ProgStep op a i (.row r)

theorem prog_step {op : Op} {a : Bool} {i : Nat} {st : SeqStep} (h : (prog op a)[i]? = some st) :
    ProgStep op a i st := by
  cases op with
  | init =>
    match i with
    | 0 => cases h; exact .hold rfl rfl
    | 1 => cases h; exact .wait rfl rfl _ rfl
    | 2 => cases h; exact .tx _ (by simp [commandSequences]) (.inr ⟨rfl, rfl⟩)
    | n + 3 => cases h
  | clear =>
    match i with
    | 0 => cases h; exact .tx _ (by simp [commandSequences]) (.inl rfl)
    | n + 1 => cases h
  | seton =>
    match i with
    | 0 => cases h; exact .tx _ (by cases a <;> simp [commandSequences]) (.inl rfl)
    | n + 1 => cases h
  | setinv =>
    match i with
    | 0 => cases h; exact .tx _ (by cases a <;> simp [commandSequences]) (.inl rfl)
    | n + 1 => cases h
  | blit =>
    match i with
    | 0 => cases h; exact .tx _ (by simp [commandSequences]) (.inl rfl)
    | n + 1 =>
      by_cases hn : n < 64
      · have e : (prog .blit a)[n + 1]? = some (.row n) := by simp [prog, hn]
        rw [e] at h
        cases h
        exact .row n rfl hn rfl
      · simp [prog, hn] at h

/-- A position's step has a bracket with that mode: Reset for HOLD, Command for TX, Data for ROW. -/
theorem mode?_cases {op : Op} {a : Bool} {i : Nat} {st : SeqStep} {m : Mode} (h : (prog op a)[i]? = some st)
    (hm : st.mode? = some m) :
    (m = .reset ∧ st = .hold .reset .tResetHold ∧ op = .init ∧ i = 0) ∨
      (m = .command ∧ ∃ cmds ∈ commandSequences, st = .tx .command cmds) ∨
      (m = .data ∧ ∃ r < 64, st = .row r ∧ op = .blit ∧ i = r + 1) := by
  cases prog_step h with
  | hold ho hi => cases hm; exact .inl ⟨rfl, rfl, ho, hi⟩
  | wait => cases hm
  | tx cmds hc hi => cases hm; exact .inr (.inl ⟨rfl, cmds, hc, rfl⟩)
  | row r ho hr hi => cases hm; exact .inr (.inr ⟨rfl, r, hr, rfl, ho, hi⟩)

/-- What one phase can do, with every field it changes. -/
inductive PhaseEffect (op : Op) (a : Bool) (i : Nat) (ph : Phase) (st : SeqStep) (s t : State) : Prop
  | waits (ht : t = s)
  | enters (m : Mode) (ms : List ModeAnswer) (hp : ph = .enter) (hm : st.mode? = some m)
      (hq : s.modeAnswers = .ok :: ms)
      (ht : t = { s with
        modeAnswers := ms
        trace := s.trace ++ [.modeEnter m .ok]
        linkMode := linkModeOf m
        link := m
        seq := .run op a i .body })
  | modeFails (m : Mode) (c : ErrCode) (ms : List ModeAnswer) (hp : (ph = .enter ∧ st.mode? = some m) ∨ (ph = .exit ∧ m = .idle))
      (hq : s.modeAnswers = .err c :: ms)
      (ht : t = State.abort (.mode c) { s with modeAnswers := ms, trace := s.trace ++ [.modeEnter m (.err c)] })
  | writes (m : Mode) (r : TxAnswer) (ts : List TxAnswer) (hp : ph = .body) (hm : st.mode? = some m)
      (hk : ∀ m p, st ≠ .hold m p) (hq : s.txAnswers = r :: ts) (hw : writeCheck (st.buffer s).length r = none)
      (ht : t = { s with
        txAnswers := ts
        trace := s.trace ++ [.txWrite (st.buffer s) r]
        wire := s.wire ++ (st.buffer s).map (WireByte.mk s.linkMode)
        seq := .run op a i .exit })
  | writeFails (m : Mode) (r : TxAnswer) (ts : List TxAnswer) (f : Failure) (hp : ph = .body) (hm : st.mode? = some m)
      (hk : ∀ m p, st ≠ .hold m p) (hq : s.txAnswers = r :: ts) (hw : writeCheck (st.buffer s).length r = some f)
      (ht : t = State.abort f { s with
        txAnswers := ts
        trace := s.trace ++ [.txWrite (st.buffer s) r]
        wire := s.wire ++ (st.buffer s).map (WireByte.mk s.linkMode) })
  | holds (m : Mode) (p : DelayParam) (hp : ph = .body) (hst : st = .hold m p)
      (ht : t = { s with trace := s.trace ++ [.delay p], seq := .run op a i .exit })
  | exits (m : Mode) (ms : List ModeAnswer) (st' : SeqStep) (hp : ph = .exit) (hm : st.mode? = some m)
      (hq : s.modeAnswers = .ok :: ms) (hn : (prog op a)[i + 1]? = some st')
      (ht : t = { s with
        modeAnswers := ms
        trace := s.trace ++ [.modeEnter .idle .ok]
        linkMode := linkModeOf .idle
        link := .idle
        seq := .run op a (i + 1) st'.firstPhase })
  | completes (m : Mode) (ms : List ModeAnswer) (hp : ph = .exit) (hm : st.mode? = some m)
      (hq : s.modeAnswers = .ok :: ms) (hn : (prog op a)[i + 1]? = none)
      (ht : t = State.complete { s with
        modeAnswers := ms
        trace := s.trace ++ [.modeEnter .idle .ok]
        linkMode := linkModeOf .idle
        link := .idle })
  | delays (p : DelayParam) (st' : SeqStep) (hp : ph = .delay) (hst : st = .wait p)
      (hn : (prog op a)[i + 1]? = some st')
      (ht : t = { s with trace := s.trace ++ [.delay p], seq := .run op a (i + 1) st'.firstPhase })
  | packs (r : Nat) (hp : ph = .pack) (hst : st = .row r)
      (ht : t = { s with wrow := packRow (s.frameRow r), draws := s.draws + 16, seq := .run op a i .enter })

/-- The inversion of a phase. -/
theorem phase_effect {op : Op} {a : Bool} {i : Nat} {ph : Phase} {st : SeqStep} {s t : State}
    (hs : s.seq = .run op a i ph) (hst : (prog op a)[i]? = some st) (h : s.phaseOf st ph = .next t) :
    PhaseEffect op a i ph st s t := by
  cases phaseOf_cases h with
  | enter m hm hp ht =>
    rcases modeEnter_cases m (State.toPhase .body) s with ⟨_, e⟩ | ⟨ms, hq, e⟩ | ⟨c, ms, hq, e⟩
    · exact .waits (ht.trans e)
    · exact .enters m ms hp hm hq ((ht.trans e).trans (toPhase_eq .body hs))
    · exact .modeFails m c ms (.inl ⟨hp, hm⟩) hq (ht.trans e)
  | write m hm hp hk ht =>
    rcases writeChecked_cases (st.buffer s) (State.toPhase .exit) s with ⟨_, e⟩ | ⟨r, ts, hq, hw, e⟩ | ⟨r, ts, f, hq, hw, e⟩
    · exact .waits (ht.trans e)
    · exact .writes m r ts hp hm hk hq hw ((ht.trans e).trans (toPhase_eq .exit hs))
    · exact .writeFails m r ts f hp hm hk hq hw (ht.trans e)
  | hold m p hst hp ht => exact .holds m p hp hst (ht.trans (toPhase_eq .exit hs))
  | exit m hm hp ht =>
    rcases modeEnter_cases .idle State.stepDone s with ⟨_, e⟩ | ⟨ms, hq, e⟩ | ⟨c, ms, hq, e⟩
    · exact .waits (ht.trans e)
    · rcases stepDone_cases (s := { s.log (.modeEnter .idle .ok) with modeAnswers := ms, linkMode := linkModeOf .idle, link := .idle }) hs with
        ⟨st', hn, e'⟩ | ⟨hn, e'⟩
      · exact .exits m ms st' hp hm hq hn ((ht.trans e).trans e')
      · exact .completes m ms hp hm hq hn ((ht.trans e).trans e')
    · exact .modeFails .idle c ms (.inr ⟨hp, rfl⟩) hq (ht.trans e)
  | wait p hw hp ht =>
    subst hw
    cases prog_step hst with
    | wait ho hi st' hn =>
      rcases stepDone_cases (s := s.log (.delay .tResetSettle)) hs with ⟨st'', hn', e'⟩ | ⟨hn', e'⟩
      · exact .delays _ st'' hp rfl hn' (ht.trans e')
      · rw [hn] at hn'; cases hn'
  | pack r hw hp ht => exact .packs r hp hw (ht.trans (toPhase_eq .enter hs))

/-- What every kind of move keeps, every step keeps: the host's moves, acceptance of a legal and of a reserved word, a
phase of an operation, block reset, the pack port, and a write of the frame. -/
theorem step_keeps (P : State → Prop)
    (moves : ∀ (s : State) (hs : List HostMove), P s → P { s with host := hs })
    (offers : ∀ (s : State) (ws : List Byte), P s → P { s with offers := ws })
    (accepts : ∀ (s : State) (op : Op) (a : Bool), s.seq = .ready → P s → (op.takesArg = false → a = false) →
      P (s.accept op a))
    (reserved : ∀ s : State, s.seq = .ready → P s → P (s.abort .illegalOp))
    (phases : ∀ (s t : State) (op : Op) (a : Bool) (i : Nat) (ph : Phase) (st : SeqStep), s.seq = .run op a i ph →
      (prog op a)[i]? = some st → PhaseEffect op a i ph st s t → P s → P t)
    (resets : ∀ s : State, P s → P (s.blockReset s.outstandingWrite))
    (ports : ∀ (s : State) (b : Byte), P s → P (s.drivePackPort b))
    (frames : ∀ (s : State) (a : BitVec 10) (b : Byte), P s → P (s.hostFrameWrite a b)) :
    ∀ s t : State, P s → step s = .next t → P t := by
  have block : ∀ s t : State, P s → BlockMove s t → P t := by
    intro s t h hb
    cases hb with
    | waits _ _ ht => rw [ht]; exact h
    | accepts w ws op a hs _ _ htk ht => rw [ht]; exact accepts _ op a hs (offers s ws h) htk
    | reserved w ws hs _ _ ht => rw [ht]; exact reserved _ hs (offers s ws h)
    | phase op a i ph st hs hst ht => exact phases s t op a i ph st hs hst (phase_effect hs hst ht) h
  intro s t h e
  cases step_cases e with
  | block _ hb => exact block s t h hb
  | letRun hs _ hb => exact block _ t (moves s hs h) hb
  | offer w hs _ ht => rw [ht]; exact offers _ _ (moves s hs h)
  | blockReset hs _ ht => rw [ht]; exact resets _ (moves s hs h)
  | packIn b hs _ ht => rw [ht]; exact ports _ b (moves s hs h)
  | frameWrite a b hs _ ht => rw [ht]; exact frames _ a b (moves s hs h)
  | writeStatus v hs _ ht => rw [ht]; exact moves s hs h

end Sys2Proof.Machine
end

