-- ==== Sys2Proof/Tests/Slice0.lean ====
section
/-! SUPPORT. Tests of the model, each expected result taken from the rules and vectors of spec/, and witnesses for the
hypotheses of the obligations. -/

namespace Sys2Proof.Machine.Slice0

/-- Whether a step answers a next state with that property. -/
def answers (r : Result) (p : State → Bool) : Bool :=
  match r with
  | .next s => p s
  | _ => false

/-- The state after reset, moved to a position in flight. -/
def inFlight (p : Position) : State := { State.reset with seq := p, status := 0x80#8 }

/-! ### Well-formed instructions and decoding -/

/-- 30_encoding R73: a RESERVED instruction that carries a legal word is refused. -/
theorem test_reserved_legal_words_ill_formed :
    [0x01#8, 0x02#8, 0x03#8, 0x13#8, 0x04#8, 0x14#8, 0x05#8].all (fun w => !(Instr.reserved w).wellFormed) = true := by
  decide

/-- 30_encoding R74: each reason for a reserved word (95 Q8 to Q17). -/
theorem test_reserved_words_well_formed :
    [0x00#8, 0x06#8, 0x0F#8, 0x11#8, 0x12#8, 0x15#8, 0x21#8, 0x83#8, 0xE1#8, 0xFF#8].all
      (fun w => (Instr.reserved w).wellFormed) = true := by
  decide

/-- 95 Q1 to Q7: the seven legal words. -/
theorem test_decode_operations :
    [0b00000001#8, 0b00000010#8, 0b00000011#8, 0b00010011#8, 0b00000100#8, 0b00010100#8, 0b00000101#8].map decode =
      [.init, .clear, .seton false, .seton true, .setinv false, .setinv true, .blit] := by
  decide

/-- 95 Q8 to Q17: reserved words decode to themselves. -/
theorem test_decode_reserved :
    [0b00000000#8, 0b00001111#8, 0b00010001#8, 0b00010101#8, 0b00100001#8, 0b10000011#8, 0b11111111#8].map decode =
      [.reserved 0x00#8, .reserved 0x0F#8, .reserved 0x11#8, .reserved 0x15#8, .reserved 0x21#8, .reserved 0x83#8,
        .reserved 0xFF#8] := by
  decide

/-- 10_state R31: the pack port's byte. -/
theorem test_decode_pack : decodeAs .packPort WireOpc.default [0b01101001#8] = some (.pack 0x69#8) := by decide

theorem test_decode_opcDisplayOff :
    decodeAs .wire WireOpc.default
      [0b10101110#8] =
        some .opcDisplayOff := by decide

theorem test_decode_opcDisplayOn :
    decodeAs .wire WireOpc.default
      [0b10101111#8] =
        some .opcDisplayOn := by decide

theorem test_decode_opcSetClock :
    decodeAs .wire WireOpc.default
      [0b10110011#8, 0b01010101#8] =
        some (.opcSetClock 0x55#8) := by decide

theorem test_decode_opcSetMux :
    decodeAs .wire WireOpc.default
      [0b10101000#8, 0b01010001#8] =
        some (.opcSetMux 0x51#8) := by decide

theorem test_decode_opcSetOffset :
    decodeAs .wire WireOpc.default
      [0b10100010#8, 0b01010010#8] =
        some (.opcSetOffset 0x52#8) := by decide

theorem test_decode_opcSetStartLine :
    decodeAs .wire WireOpc.default
      [0b10100001#8, 0b01010001#8] =
        some (.opcSetStartLine 0x51#8) := by decide

theorem test_decode_opcMasterConfig :
    decodeAs .wire WireOpc.default
      [0b10101101#8, 0b01010110#8] =
        some (.opcMasterConfig 0x56#8) := by decide

theorem test_decode_opcSetRemap :
    decodeAs .wire WireOpc.default
      [0b10100000#8, 0b01010111#8] =
        some (.opcSetRemap 0x57#8) := by decide

theorem test_decode_opcSetCurrentFull :
    decodeAs .wire WireOpc.default
      [0b10000110#8] =
        some .opcSetCurrentFull := by decide

theorem test_decode_opcSetGrayTable :
    decodeAs .wire WireOpc.default
      [0b10111000#8, 0b00000001#8, 0b00010001#8, 0b00100010#8, 0b00110010#8, 0b01000011#8, 0b01010100#8, 0b01100101#8, 0b01110110#8] =
        some (.opcSetGrayTable 0x01#8 0x11#8 0x22#8 0x32#8 0x43#8 0x54#8 0x65#8 0x76#8) := by decide

theorem test_decode_opcSetContrast :
    decodeAs .wire WireOpc.default
      [0b10000001#8, 0b01010100#8] =
        some (.opcSetContrast 0x54#8) := by decide

theorem test_decode_opcSetRowPeriod :
    decodeAs .wire WireOpc.default
      [0b10110010#8, 0b01010100#8] =
        some (.opcSetRowPeriod 0x54#8) := by decide

theorem test_decode_opcSetPhaseLen :
    decodeAs .wire WireOpc.default
      [0b10110001#8, 0b01010011#8] =
        some (.opcSetPhaseLen 0x53#8) := by decide

theorem test_decode_opcSetPrechargeLevel :
    decodeAs .wire WireOpc.default
      [0b10110100#8, 0b01010110#8] =
        some (.opcSetPrechargeLevel 0x56#8) := by decide

theorem test_decode_opcSetPrechargeEnable :
    decodeAs .wire WireOpc.default
      [0b10110000#8, 0b01010010#8] =
        some (.opcSetPrechargeEnable 0x52#8) := by decide

theorem test_decode_opcSetVcomh :
    decodeAs .wire WireOpc.default
      [0b10111110#8, 0b01010010#8] =
        some (.opcSetVcomh 0x52#8) := by decide

theorem test_decode_opcSetVsl :
    decodeAs .wire WireOpc.default
      [0b10111111#8, 0b01010011#8] =
        some (.opcSetVsl 0x53#8) := by decide

theorem test_decode_opcNormalDisplay :
    decodeAs .wire WireOpc.default
      [0b10100100#8] =
        some .opcNormalDisplay := by decide

theorem test_decode_opcInvertDisplay :
    decodeAs .wire WireOpc.default
      [0b10100111#8] =
        some .opcInvertDisplay := by decide

theorem test_decode_opcGfxAccel :
    decodeAs .wire WireOpc.default
      [0b00100011#8, 0b01010001#8] =
        some (.opcGfxAccel 0x51#8) := by decide

theorem test_decode_opcDrawRect :
    decodeAs .wire WireOpc.default
      [0b00100100#8, 0b00000000#8, 0b00000001#8, 0b00111110#8, 0b00111111#8, 0b00001111#8] =
        some (.opcDrawRect 0x00#8 0x01#8 0x3E#8 0x3F#8 0x0F#8) := by decide

theorem test_decode_opcSetColAddr :
    decodeAs .wire WireOpc.default
      [0b00010101#8, 0b00000000#8, 0b00111111#8] =
        some (.opcSetColAddr 0x00#8 0x3F#8) := by decide

theorem test_decode_opcSetRowAddr :
    decodeAs .wire WireOpc.default
      [0b01110101#8, 0b00000001#8, 0b00111110#8] =
        some (.opcSetRowAddr 0x01#8 0x3E#8) := by decide

/-- 30_encoding R86: a command that lacks operand bytes, and a byte that is no opcode, are refused by name. -/
theorem test_wire_decoder_refuses :
    (match decodeWire WireOpc.default [0x24#8, 0x00#8, 0x00#8] with
      | .error e => e == .missingOperands .drawRect
      | .ok _ => false) = true ∧
    (match decodeWire WireOpc.default [0x00#8] with
      | .error e => e == .unknownOpcode 0x00#8
      | .ok _ => false) = true ∧
    (match decodeWire WireOpc.default [] with
      | .error e => e == .endOfStream
      | .ok _ => false) = true := by
  decide

/-- 30_encoding R81: the 40 bytes of INIT_SEQ with the default WIRE_OPC. -/
theorem test_init_seq_default_bytes :
    commandBytes WireOpc.default initSeq =
      [0xAE#8, 0xB3#8, 0xF1#8, 0xA8#8, 0x3F#8, 0xA2#8, 0x4C#8, 0xA1#8, 0x00#8, 0xAD#8, 0x02#8, 0xA0#8, 0x50#8, 0x86#8] ++
        [0xB8#8, 0x01#8, 0x11#8, 0x22#8, 0x32#8, 0x43#8, 0x54#8, 0x65#8, 0x76#8, 0x81#8, 0x7F#8, 0xB2#8, 0x51#8] ++
        [0xB1#8, 0x55#8, 0xB4#8, 0x02#8, 0xB0#8, 0x28#8, 0xBE#8, 0x1C#8, 0xBF#8, 0x0F#8, 0xA4#8, 0x23#8, 0x01#8] := by
  decide

/-- 30_encoding R75: `.word` writes its word in hexadecimal. -/
theorem test_assembler_text : (AsmLine.word 0xE1#8).text = ".word 0xE1" ∧ AsmLine.dispon.assemble = 0x13#8 := by decide

/-! ### One step of each instruction -/

/-- 42_display R151: INIT accepted. -/
theorem test_init_accepted :
    answers (step (State.reset.withFetchWord 8 0x01)) (fun t =>
      t.status == 0x80#8 && t.seq == .run .init false 0 .enter && t.trace.isEmpty) = true := by
  decide

/-- 40_mode R111: INIT's first bracket enters Reset, LINK_MODE 0b101. -/
theorem test_init_enters_reset :
    answers (exec .init { inFlight (.run .init false 0 .enter) with modeAnswers := [.ok] }) (fun t =>
      t.linkMode == 0b101#3 && t.seq == .run .init false 0 .body && t.trace == [.modeEnter .reset .ok]) = true := by
  decide

/-- 42_display R160: CLEAR writes 24 00 00 3F 3F 00 in one write, and six bytes answered are enough. -/
theorem test_clear_writes :
    answers (exec .clear { inFlight (.run .clear false 0 .body) with linkMode := 0b111#3, txAnswers := [.ok 6] })
      (fun t => t.trace == [.txWrite [0x24#8, 0x00#8, 0x00#8, 0x3F#8, 0x3F#8, 0x00#8] (.ok 6)] &&
        t.seq == .run .clear false 0 .exit) = true := by
  decide

/-- 40_mode R104, 60_exceptions R205: five bytes of CLEAR's six answered: ERR_WRITE_FAILED, VALID 0, MODE kept. -/
theorem test_clear_short_write :
    answers (exec .clear { inFlight (.run .clear false 0 .body) with linkMode := 0b111#3, txAnswers := [.ok 5] })
      (fun t => t.status == 0x02#8 && t.errcode == 0 && t.linkMode == 0b011#3 && t.seq == .ready) = true := by
  decide

/-- 42_display R163: SETON 1 writes AF; 95 K1: no byte answered is a failure. -/
theorem test_seton_writes :
    answers (exec (.seton true) { inFlight (.run .seton true 0 .body) with txAnswers := [.ok 0] })
      (fun t => t.trace == [.txWrite [0xAF#8] (.ok 0)] && t.status == 0x02#8) = true := by
  decide

/-- 42_display R163: SETON 0 writes AE, and its argument comes from bit 4 of the word. -/
theorem test_seton_off_writes :
    answers (step { inFlight (.run .seton false 0 .body) with txAnswers := [.ok 1] })
      (fun t => t.trace == [.txWrite [0xAE#8] (.ok 1)] && t.seq == .run .seton false 0 .exit) = true := by
  decide

/-- 42_display R166: SETINV 0 writes A4, and a transport error is reported with its code. -/
theorem test_setinv_transport_error :
    answers (exec (.setinv false) { inFlight (.run .setinv false 0 .body) with txAnswers := [.err (.num 9)] })
      (fun t => t.trace == [.txWrite [0xA4#8] (.err (.num 9))] && t.status == 0x03#8 && t.errcode == 9) = true := by
  decide

/-- 40_mode R113, 42_display R152: SETINV 1 completes: STATUS 0x01, LINK_MODE 0b100. -/
theorem test_setinv_completes :
    answers (exec (.setinv true) { inFlight (.run .setinv true 0 .exit) with linkMode := 0b111#3, modeAnswers := [.ok] })
      (fun t => t.status == 0x01#8 && t.linkMode == 0b100#3 && t.seq == .ready) = true := by
  decide

/-- 42_display R171: BLIT's PACK of row 1 reads address 16 (95 P7: A5 packs to F0 F0 0F 0F). -/
theorem test_blit_packs_row :
    answers (exec .blit { inFlight (.run .blit false 2 .pack) with frame := [(16, 0xA5#8), (32, 0xFF#8)] })
      (fun t => t.wrow.take 5 == [0xF0#8, 0xF0#8, 0x0F#8, 0x0F#8, 0x00#8] && t.wrow.length == 64 &&
        t.seq == .run .blit false 2 .enter && t.trace.isEmpty) = true := by
  decide

/-- 42_display R170, R172: after row 63's bracket BLIT completes, and an error there is reported instead. -/
theorem test_blit_ends :
    answers (exec .blit { inFlight (.run .blit false 64 .exit) with modeAnswers := [.ok] })
      (fun t => t.status == 0x01#8 && t.seq == .ready) = true ∧
    answers (exec .blit { inFlight (.run .blit false 64 .exit) with modeAnswers := [.err (.num 5)] })
      (fun t => t.status == 0x04#8 && t.errcode == 5 && t.seq == .ready) = true := by
  decide

/-- 95 Q14: the word 0x21: STATUS 0x05, no event, LINK_MODE as it was. -/
theorem test_reserved_reports :
    answers (step ({ State.reset with linkMode := 0b100#3 }.withFetchWord 8 0x21)) (fun t =>
      t.status == 0x05#8 && t.errcode == 0 && t.linkMode == 0b100#3 && t.trace.isEmpty) = true := by
  decide

/-- 10_state R22: while BUSY is 1 a reserved word is held. -/
theorem test_reserved_held :
    answers (exec (.reserved 0x21#8) (inFlight (.run .clear false 0 .enter)))
      (fun t => t == inFlight (.run .clear false 0 .enter)) = true := by
  decide

/-- 95 P11: 69 on the pack port gives 0FF0F00F, at any time. -/
theorem test_pack_port :
    answers (exec (.pack 0x69#8) (inFlight (.run .clear false 0 .enter)))
      (fun t => t.packOut == 0x0FF0F00F#32 && t.seq == .run .clear false 0 .enter) = true := by
  decide

/-- 95 P3, P4, P6, P16: inputs that tell the two pixel orders apart. -/
theorem test_pack_vectors :
    [0x80#8, 0x01#8, 0x02#8, 0x0F#8].map packWord = [0xF0000000#32, 0x0000000F#32, 0x000000F0#32, 0x0000FFFF#32] := by
  decide

/-- 30_encoding R80: a wire command puts its opcode and then its operands on the wire, in the link's mode. -/
theorem test_wire_commands_emit :
    answers (exec (.opcSetColAddr 0x00#8 0x3F#8) { State.reset with linkMode := 0b111#3 }) (fun t =>
      t.wire == [⟨0b111#3, 0x15#8⟩, ⟨0b111#3, 0x00#8⟩, ⟨0b111#3, 0x3F#8⟩]) = true ∧
    answers (exec (.opcSetGrayTable 1 2 3 4 5 6 7 8) State.reset) (fun t =>
      t.wire.map WireByte.byte == [0xB8#8, 1, 2, 3, 4, 5, 6, 7, 8]) = true ∧
    answers (exec .opcNormalDisplay State.reset) (fun t => t.wire.map WireByte.byte == [0xA4#8]) = true := by
  decide

/-- 70_reset R232: block reset in a bracket: READY, STATUS 0x00, VALID 0, no event. -/
theorem test_block_reset :
    answers (step { inFlight (.run .blit false 3 .body) with host := [.blockReset], linkMode := 0b110#3 }) (fun t =>
      t.seq == .ready && t.status == 0x00#8 && t.linkMode == 0b000#3 && t.trace.isEmpty) = true := by
  decide

/-- 95 W3: the worked example of packRow, and X5: pixel 127. -/
theorem test_pack_row :
    (packRow ([0x80#8] ++ List.replicate 14 0x00#8 ++ [0x01#8])).getD 0 0xFF#8 = 0xF0#8 ∧
      (packRow ([0x80#8] ++ List.replicate 14 0x00#8 ++ [0x01#8])).getD 63 0xFF#8 = 0x0F#8 ∧
      (packRow ([0x80#8] ++ List.replicate 14 0x00#8 ++ [0x01#8])).length = 64 := by
  decide

/-! ### Witnesses: states and operands that meet the hypotheses of each obligation -/

theorem witness_ExactlySevenWordsAreLegal : legalWord 0x01#8 = true ∧ legalWord 0x14#8 = true ∧ State.reset.seq = .ready := by
  decide

theorem witness_DecodeOfEncodeIsTheInstruction :
    WireOpc.default.Injective ∧ (Instr.reserved 0xFF#8).wellFormed = true ∧ (Instr.pack 0xFF#8).wellFormed = true ∧
      (Instr.opcDrawRect 0 1 2 3 0xFF).wellFormed = true := by
  decide

theorem witness_CommandStreamSplitsIntoItsCommands :
    WireOpc.default.Injective ∧ ∀ i ∈ initSeq ++ blitPre, i.format = .wire := by
  decide

theorem witness_WireDecoderReadsTheEncoding :
    decodeWire WireOpc.default [0xB3#8, 0xF1#8, 0xA4#8] = .ok (.opcSetClock 0xF1#8, [0xA4#8]) := by rfl

theorem witness_PackOutCopiesEachBitFourTimes :
    (0 < 8 ∧ 0 < 4) ∧ (7 < 8 ∧ 3 < 4) ∧ packPixelByte 0xC3#8 = [0xFF#8, 0x00#8, 0x00#8, 0xFF#8] := by
  decide

theorem witness_EveryPixelLandsInItsNibble :
    (List.replicate 16 0x01#8).length = 16 ∧ 0 < 128 ∧ 127 < 128 := by decide

theorem witness_PackPortAnswersInEveryState : packPixelByte 0x5A#8 = [0x0F#8, 0x0F#8, 0xF0#8, 0xF0#8] := by decide

/-- A state with block reset asserted in BLIT's row 2. -/
def resetting : State :=
  { inFlight (.run .blit false 3 .body) with host := [.blockReset], txAnswers := [.ok 64], linkMode := 0b110#3 }

theorem witness_BlockReset :
    resetting.host = .blockReset :: [] ∧ (∃ t, step resetting = .next t) ∧
      ({ State.reset with host := [.blockReset] } : State).seq = .ready :=
  ⟨rfl, ⟨_, rfl⟩, rfl⟩

theorem witness_FrameAddressesAreRowThenColumn : (0 < 64 ∧ 0 < 16) ∧ (63 < 64 ∧ 15 < 16) := by decide

theorem witness_OperationsAreAcceptedAtReady : State.reset.seq = .ready := rfl

theorem witness_ReservedWordsReportIllegalOp : legalWord 0x21#8 = false ∧ State.reset.seq = .ready := by decide

/-- CLEAR in its body with two words held at OPREQ. -/
def holding : State :=
  { inFlight (.run .clear false 0 .body) with offers := [0x05#8, 0x21#8], txAnswers := [.ok 6] }

/-- The same, where the host's move is to let the block run, and two more moves follow. -/
def letting : State := { holding with host := [.letRun, .offer 0x01#8, .blockReset] }

/-- The block moves next in both: with no move of the host, and with the host letting it run (log entry 4). -/
theorem witness_BlockNext :
    BlockNext holding holding ∧ BlockNext letting { letting with host := [.offer 0x01#8, .blockReset] } :=
  ⟨.inl ⟨rfl, rfl⟩, .inr ⟨_, rfl, rfl⟩⟩

/-- `letRun` takes itself from the host's list and the block's phase runs; the moves after it wait. -/
theorem test_letRun_runs_the_block :
    answers (step letting) (fun t =>
      t.host == [.offer 0x01#8, .blockReset] && t.seq == .run .clear false 0 .exit && t.offers == letting.offers) = true := by
  decide

theorem witness_OffersAreHeldWhileBusy :
    (holding.seq = .run .clear false 0 .body ∧ Instr.blit.format = .opreq ∧ Instr.blit ≠ Op.instr .clear false ∧
      ∃ t, step holding = .next t) ∧
      letting.seq = .run .clear false 0 .body ∧ ∃ t, step letting = .next t :=
  ⟨⟨rfl, rfl, by decide, ⟨_, rfl⟩⟩, rfl, ⟨_, rfl⟩⟩

theorem witness_StepRunsTheDecodedInstruction :
    (∃ s u : State, BlockNext s u ∧ s.host = [] ∧ s.seq = .ready ∧ s.offers = 0x14#8 :: [0x05#8]) ∧
      (∃ s u : State, BlockNext s u ∧ s.host = .letRun :: [] ∧ s.seq = .ready ∧ s.offers = []) ∧
      (BlockNext holding holding ∧ holding.seq = .run .clear false 0 .body) ∧
      (∃ s : State, s.host = .packIn 0xFF#8 :: []) ∧ decodeTableWord 8 0x14 = some (.setinv true) :=
  ⟨⟨{ State.reset with offers := [0x14#8, 0x05#8] }, _, .inl ⟨rfl, rfl⟩, rfl, rfl, rfl⟩,
    ⟨{ State.reset with host := [.letRun] }, _, .inr ⟨[], rfl, rfl⟩, rfl, rfl, rfl⟩, ⟨.inl ⟨rfl, rfl⟩, rfl⟩,
    ⟨{ State.reset with host := [.packIn 0xFF#8] }, rfl⟩, by decide⟩

/-- A position in flight with answers of both devices. -/
def answered (p : Position) (ms : List ModeAnswer) (ts : List TxAnswer) : State :=
  { inFlight p with modeAnswers := ms, txAnswers := ts }

theorem witness_EnterPhaseEntersOrAborts :
    ((answered (.run .init false 0 .enter) [.ok] []).seq = .run .init false 0 .enter ∧
      (prog .init false)[0]? = some (.hold .reset .tResetHold) ∧
      SeqStep.mode? (.hold .reset .tResetHold) = some .reset ∧
      (answered (.run .init false 0 .enter) [.ok] []).modeAnswers = .ok :: []) ∧
    (answered (.run .blit false 64 .enter) [.err (.num 0xFFFFFFFF)] []).seq = .run .blit false 64 .enter ∧
      (prog .blit false)[64]? = some (.row 63) ∧ SeqStep.mode? (.row 63) = some .data ∧
      (answered (.run .blit false 64 .enter) [.err (.num 0xFFFFFFFF)] []).modeAnswers = .err (.num 0xFFFFFFFF) :: [] := by
  decide

theorem witness_BodyPhaseWritesOnceOrAborts :
    (prog .clear false)[0]? = some (.tx .command clearSeq) ∧ (prog .blit false)[64]? = some (.row 63) ∧
      (prog .init false)[0]? = some (.hold .reset .tResetHold) ∧
      (answered (.run .clear false 0 .body) [] [.ok 6]).txAnswers = .ok 6 :: [] ∧
      (commandBytes WireOpc.default clearSeq).length ≤ 6 ∧
      (answered (.run .blit false 64 .body) [] [.ok 63]).txAnswers = .ok 63 :: [] ∧
      63 < (answered (.run .blit false 64 .body) [] [.ok 63]).wrow.length ∧
      (answered (.run .blit false 64 .body) [] [.err (.num 0)]).txAnswers = .err (.num 0) :: [] := by
  decide

theorem witness_ExitPhaseReturnsToIdleOrAborts :
    (answered (.run .blit false 63 .exit) [.ok] []).seq = .run .blit false 63 .exit ∧
      (prog .blit false)[63]? = some (.row 62) ∧ SeqStep.mode? (.row 62) = some .data ∧
      (prog .blit false)[63 + 1]? = some (.row 63) ∧ (prog .blit false)[64 + 1]? = none ∧
      (answered (.run .blit false 64 .exit) [.ok] []).modeAnswers = .ok :: [] ∧
      (answered (.run .blit false 64 .exit) [.err (.num 7)] []).modeAnswers = .err (.num 7) :: [] := by
  decide

theorem witness_WaitStepOnlyDelays :
    (inFlight (.run .init false 1 .delay)).seq = .run .init false 1 .delay ∧
      (prog .init false)[1]? = some (.wait .tResetSettle) ∧
      (prog .init false)[1 + 1]? = some (.tx .command initSeq) := by
  decide

/-- BLIT at ROW(63)'s PACK with the frame's last byte raced: old value 0x00, new value 0xFF. -/
def racing : State :=
  { answered (.run .blit false (1 + 63) .pack) [.ok, .ok] [.ok 64] with
    frame := [(1023, 0xFF#8)]
    raced := [(1023, 0x00#8)] }

/-- 70_reset R236: a read of the raced byte gives the new or the old value, whichever choice is drawn. -/
theorem test_raced_read_is_old_or_new (k : Nat) : racing.frameRead k (frameAddr 63 15) ∈ [0xFF#8, 0x00#8] := by
  have pick : ∀ n, n < 2 → ([0xFF#8, 0x00#8] : List Byte).getD n 0xFF#8 ∈ [0xFF#8, 0x00#8] := by decide
  exact pick (Config.freeChoice k % 2) (Nat.mod_lt _ (by decide))

/-- 70_reset R236: the bytes of the row that are not raced are packed as they are. -/
theorem test_raced_row_packs_the_rest :
    answers (exec .blit racing) (fun t => t.wrow.take 60 == List.replicate 60 0x00#8) = true := by
  decide

theorem witness_RowStepPacksThenWrites :
    ((answered (.run .blit false (1 + 62) .pack) [.ok, .ok] [.ok 64]).seq = .run .blit false (1 + 62) .pack ∧ 62 < 63 ∧
      (answered (.run .blit false (1 + 62) .pack) [.ok, .ok] [.ok 64]).raced = [] ∧
      (answered (.run .blit false (1 + 62) .pack) [.ok, .ok] [.ok 64]).modeAnswers = .ok :: .ok :: [] ∧
      (answered (.run .blit false (1 + 62) .pack) [.ok, .ok] [.ok 64]).txAnswers = .ok 64 :: [] ∧ 64 ≤ 64) ∧
    63 < 64 ∧ racing.seq = .run .blit false (1 + 63) .pack ∧ racing.raced ≠ [] ∧
      racing.modeAnswers = .ok :: .ok :: [] ∧ racing.txAnswers = .ok 64 :: [] ∧
      ∃ row : List Byte, row = packRow (racing.frameRow 63) :=
  ⟨by decide, by decide, rfl, by decide, rfl, rfl, ⟨_, rfl⟩⟩

theorem witness_RacedFrameReadReturnsOldOrNew :
    (∀ v, ((1023#10).toNat, v) ∉ State.reset.raced) ∧
      ({ inFlight (.run .blit false 1 .pack) with host := [.frameWrite 1023#10 0xFF#8] } : State).host =
        .frameWrite 1023#10 0xFF#8 :: [] ∧
      (0 < 64 ∧ 0 < 16 ∧ (inFlight (.run .blit false (1 + 0) .pack)).seq = .run .blit false (1 + 0) .pack) ∧
      63 < 64 ∧ 15 < 16 ∧ racing.seq = .run .blit false (1 + 63) .pack :=
  ⟨fun _ h => (nomatch h), rfl, by decide, by decide, by decide, rfl⟩

theorem witness_UnansweredRequestWaits :
    (∃ u, BlockNext (inFlight (.run .init false 0 .enter)) u) ∧
    (∃ u, BlockNext { inFlight (.run .setinv true 0 .body) with host := [.letRun] } u) ∧
    ((prog .init false)[0]? = some (.hold .reset .tResetHold) ∧
      SeqStep.mode? (.hold .reset .tResetHold) ≠ none ∧ (inFlight (.run .init false 0 .enter)).modeAnswers = []) ∧
    ((prog .blit false)[64]? = some (.row 63) ∧ SeqStep.mode? (.row 63) ≠ none ∧
      (inFlight (.run .blit false 64 .exit)).modeAnswers = []) ∧
    (prog .setinv true)[0]? = some (.tx .command [.opcInvertDisplay]) ∧
      (inFlight (.run .setinv true 0 .body)).txAnswers = [] :=
  ⟨⟨_, .inl ⟨rfl, rfl⟩⟩, ⟨_, .inr ⟨[], rfl, rfl⟩⟩, by decide, by decide, by decide, by decide⟩

theorem witness_InitRunsToCompletion :
    (answered .ready [.ok, .ok, .ok, .ok] [.ok 40]).seq = .ready ∧
      (answered .ready [.ok, .ok, .ok, .ok] [.ok 40]).modeAnswers = .ok :: .ok :: .ok :: .ok :: [] ∧
      (answered .ready [.ok, .ok, .ok, .ok] [.ok 40]).txAnswers = .ok 40 :: [] ∧ 40 ≤ 40 := by
  decide

theorem witness_SingleBracketOperationsRunToCompletion :
    (answered .ready [.ok, .ok] [.ok 6]).seq = .ready ∧
      (answered .ready [.ok, .ok] [.ok 6]).modeAnswers = .ok :: .ok :: [] ∧
      (answered .ready [.ok, .ok] [.ok 6]).txAnswers = .ok 6 :: [] ∧
      [State.reset.params.wireOpc.drawRect, 0x00#8, 0x00#8, 0x3F#8, 0x3F#8, 0x00#8].length ≤ 6 ∧
      [State.reset.params.wireOpc.displayOff].length ≤ 6 := by
  decide

theorem witness_BlitRunsToCompletion :
    ∃ (s : State) (ns : List Nat), s.seq = .ready ∧ s.raced = [] ∧ s.modeAnswers = List.replicate 130 .ok ++ [] ∧
      s.txAnswers = .ok 6 :: (ns.map .ok ++ []) ∧ 6 ≤ 6 ∧ ns.length = 64 ∧ ∀ k ∈ ns, 64 ≤ k :=
  ⟨answered .ready (List.replicate 130 .ok ++ []) (.ok 6 :: ((List.replicate 64 64).map .ok ++ [])),
    List.replicate 64 64, rfl, rfl, rfl, rfl, by decide, by decide, by decide⟩

/-- A count one short of the length, and a code that just fits ERRCODE. -/
theorem witness_WriteFails :
    WriteFails State.reset.params 6 (.ok 5) 0x2#4 0 ∧ WriteFails State.reset.params 64 (.ok 63) 0x2#4 0 ∧
      WriteFails State.reset.params 64 (.err (.num 0xFFFFFFFF)) 0x3#4 0xFFFFFFFF ∧
      WriteFails State.reset.params 64 (.err (.pair (.name 2) (.num 7))) 0x3#4
        (placeCode State.reset.params (.pair (.name 2) (.num 7))) :=
  ⟨.inl ⟨5, rfl, by decide, rfl, rfl⟩, .inl ⟨63, rfl, by decide, rfl, rfl⟩, .inr ⟨_, rfl, rfl, rfl⟩, .inr ⟨_, rfl, rfl, rfl⟩⟩

/-- READY with answers that fail in step 0, at ENTER, at BODY and at EXIT. -/
theorem witness_BlitStopsInThePreamble :
    ((answered .ready [.err (.num 7)] []).seq = .ready ∧ (answered .ready [.err (.num 7)] []).raced = [] ∧
      (answered .ready [.err (.num 7)] []).modeAnswers = .err (.num 7) :: []) ∧
      ((answered .ready [.ok] [.ok 5]).modeAnswers = .ok :: [] ∧ (answered .ready [.ok] [.ok 5]).txAnswers = .ok 5 :: []) ∧
      (answered .ready [.ok, .err (.num 0)] [.ok 6]).modeAnswers = .ok :: .err (.num 0) :: [] ∧
      (answered .ready [.ok, .err (.num 0)] [.ok 6]).txAnswers = .ok 6 :: [] ∧ 6 ≤ 6 := by
  decide

/-- READY with answers that fail in row k, at ENTER, at BODY and at EXIT, for the first row and the last. -/
theorem witness_BlitStopsAtTheFirstFailure :
    ∀ k ∈ [0, 63], ∃ (ns : List Nat) (a b c : State), k < 64 ∧ ns.length = k ∧ (∀ x ∈ ns, 64 ≤ x) ∧
      (a.seq = .ready ∧ a.raced = [] ∧ a.modeAnswers = List.replicate (2 * k + 2) .ok ++ .err (.num 9) :: [] ∧
        a.txAnswers = .ok 6 :: (ns.map .ok ++ [])) ∧
      (b.seq = .ready ∧ b.raced = [] ∧ b.modeAnswers = List.replicate (2 * k + 3) .ok ++ [] ∧
        b.txAnswers = .ok 6 :: (ns.map .ok ++ .ok 63 :: []) ∧ WriteFails b.params 64 (.ok 63) 0x2#4 0) ∧
      c.seq = .ready ∧ c.raced = [] ∧ c.modeAnswers = List.replicate (2 * k + 3) .ok ++ .err (.num 9) :: [] ∧
        c.txAnswers = .ok 6 :: (ns.map .ok ++ .ok 64 :: []) := by
  intro k hk
  have hk' : k < 64 := by
    rcases List.mem_cons.mp hk with rfl | h
    · decide
    · cases List.mem_singleton.mp h
      decide
  exact ⟨List.replicate k 64, answered .ready (List.replicate (2 * k + 2) .ok ++ .err (.num 9) :: []) (.ok 6 :: (_ ++ [])),
    answered .ready (List.replicate (2 * k + 3) .ok ++ []) (.ok 6 :: (_ ++ .ok 63 :: [])),
    answered .ready (List.replicate (2 * k + 3) .ok ++ .err (.num 9) :: []) (.ok 6 :: (_ ++ .ok 64 :: [])), hk',
    List.length_replicate, fun x hx => Nat.le_of_eq (List.eq_of_mem_replicate hx).symm,
    ⟨rfl, rfl, rfl, rfl⟩, ⟨rfl, rfl, rfl, rfl, .inl ⟨63, rfl, by decide, rfl, rfl⟩⟩, rfl, rfl, rfl, rfl⟩

theorem witness_AbortWritesItsResult :
    Failure.writeFailed ≠ .illegalOp ∧ Failure.transport (.pair (.name 0) (.num 7)) ≠ .illegalOp := by decide

theorem witness_AbortLeavesTheRestAlone :
    holding.seq.isBlit = false ∧ State.reset.seq.isBlit = false ∧ racing.seq.isBlit = true ∧
      ∃ t, t = State.abort .illegalOp State.reset :=
  ⟨rfl, rfl, rfl, ⟨_, rfl⟩⟩

theorem witness_WireCommandsEmitOpcodeThenOperands (s : State) :
    ∃ (o : WireOpc) (sends : List Byte → State), o = s.params.wireOpc ∧
      ∀ bs, sends bs = { s with wire := s.wire ++ bs.map (WireByte.mk s.linkMode) } :=
  ⟨_, fun bs => { s with wire := s.wire ++ bs.map (WireByte.mk s.linkMode) }, rfl, fun _ => rfl⟩

theorem witness_TxBodyRunsItsCommands :
    (∃ u, BlockNext (answered (.run .init false 2 .body) [] [.ok 40]) u) ∧
      (answered (.run .init false 2 .body) [] [.ok 40]).seq = .run .init false 2 .body ∧
      (prog .init false)[2]? = some (.tx .command initSeq) ∧
      (answered (.run .init false 2 .body) [] [.ok 40]).txAnswers = .ok 40 :: [] :=
  ⟨⟨_, .inl ⟨rfl, rfl⟩⟩, rfl, by decide, rfl⟩

theorem witness_Frames :
    (Instr.blit.format = .opreq ∧ ∃ t, exec .blit (answered (.run .blit false 64 .body) [] [.err (.num 3)]) = .next t) ∧
      (Instr.setinv true).format = .opreq ∧ Instr.setinv true ≠ .blit ∧ State.reset.seq = .ready ∧
      (∃ t, exec (.setinv true) State.reset = .next t) ∧
      (∃ t, exec .init (answered (.run .init false 0 .enter) [.ok] []) = .next t ∧ t.seq ≠ .ready) ∧
      ((Instr.pack 0xFF#8).format = .packPort ∧ ∃ t, exec (.pack 0xFF#8) State.reset = .next t) ∧
      (Instr.opcGfxAccel 0x01#8).format = .wire ∧ ∃ t, exec (.opcGfxAccel 0x01#8) State.reset = .next t :=
  ⟨⟨rfl, ⟨_, rfl⟩⟩, rfl, by decide, rfl, ⟨_, rfl⟩, ⟨_, rfl, by decide⟩, ⟨rfl, ⟨_, rfl⟩⟩, rfl, ⟨_, rfl⟩⟩

theorem witness_FrameIsReadOnlyInPack :
    (∀ op a k, (holding).seq ≠ .run op a k .pack) ∧ ∃ t, exec .clear holding = .next t :=
  ⟨fun op a k h => (by cases h), ⟨_, rfl⟩⟩

theorem witness_HostMoves :
    (∃ t, step { State.reset with host := [.frameWrite 0#10 0xFF#8] } = .next t) ∧
      FrameCanonical { State.reset with host := [.frameWrite 0#10 0xFF#8] } ∧
      ({ State.reset with host := [.offer 0x05#8] } : State).host = .offer 0x05#8 :: [] ∧
      ({ State.reset with host := [.writeStatus 0xFF#8] } : State).host = .writeStatus 0xFF#8 :: [] :=
  ⟨⟨_, rfl⟩, rfl, rfl, rfl⟩

/-- SETON 1 in the body of its bracket: the link in Command, its ModeEnter in the trace, the write answered. -/
def mid : State :=
  { answered (.run .seton true 0 .body) [.ok] [.ok 1] with
    linkMode := 0b111#3
    link := .command
    trace := [.modeEnter .command .ok] }

theorem witness_StepsNeverStopAndKeepPositions :
    SeqIsPosition mid ∧ SeqIsPosition (inFlight (.run .blit false 64 .exit)) ∧
      SeqIsPosition (inFlight (.run .init false 1 .delay)) ∧ ¬SeqIsPosition (inFlight (.run .blit false 65 .pack)) ∧
      ∃ t, step mid = .next t :=
  ⟨rfl, rfl, rfl, (nomatch ·), ⟨_, rfl⟩⟩

theorem witness_StatusAlwaysFollowsSeq : StatusFollowsSeq mid :=
  ⟨⟨fun _ => by decide, fun _ => by decide⟩, by decide, fun _ => by decide, by decide⟩

/-- SETON 1 waiting to enter Command, where ERR_CODE_T is one of three names or a number of 8 bits, and the driver's next
answer is a failure with the last name. -/
def named : State :=
  { answered (.run .seton true 0 .enter) [.err (.name 2)] [.err (.num 255)] with
    params := { Params.default with errCodeT := .either (.names 3) (.bits 8) } }

theorem witness_ErrcodeAlwaysFollowsResult :
    ErrcodeFollowsResult mid ∧ (CodesOfType named ∧ ∃ t, step named = .next t) ∧
      255 < 2 ^ named.params.errCodeW := by
  refine ⟨⟨fun _ => rfl, by decide⟩, ⟨⟨fun c h => ?_, fun c h => ?_, fun _ h => nomatch h⟩, ⟨_, rfl⟩⟩, by decide⟩ <;>
    (cases List.mem_singleton.mp h; rfl)

/-- 00_scope R6: which codes a type has: the bounds of names and of bits, and a pair by its parts. -/
theorem test_code_types :
    codeHasType (.names 3) (.name 2) = true ∧ codeHasType (.names 3) (.name 3) = false ∧
      codeHasType (.bits 8) (.num 255) = true ∧ codeHasType (.bits 8) (.num 256) = false ∧
      codeHasType (.pair (.names 1) .nat) (.pair (.name 0) (.num 256)) = true ∧
      codeHasType (.pair (.names 1) .nat) (.num 0) = false ∧
      codeHasType (.either (.names 1) (.bits 1)) (.num 1) = true := by
  decide

/-- 10_state R25, 60_exceptions R205: a code that is no number aborts with ERR_MODE, and the trace keeps it unchanged. -/
theorem test_named_code_aborts :
    answers (step named) (fun t =>
      t.status == 0x04#8 && t.seq == .ready && t.trace == [.modeEnter .command (.err (.name 2))]) = true := by
  decide

theorem witness_LinkModeAlwaysTrue : LinkModeTrue mid := by
  refine ⟨fun _ => by decide, by decide, by decide, ?_⟩
  intro m h
  have e : mid.seq.insideMode = some .command := rfl
  rw [e] at h
  cases h
  decide

theorem witness_WrowAlwaysHoldsItsRow : WrowHoldsRow mid := ⟨by decide, fun h => nomatch h⟩

theorem witness_WireAlwaysInWholeBuffers :
    WireInWholeBuffers { mid with wire := [⟨0b111#3, 0xAF#8⟩] } :=
  ⟨[(0b111#3, [0xAF#8])], rfl, by
    intro b hb
    cases List.mem_singleton.mp hb
    exact .inl ⟨by decide, cmdPower true, by decide, by decide⟩⟩

theorem witness_WholeBuffersHaveFourLengths :
    WholeBuffer WireOpc.default 0b110#3 (packRow (List.replicate 16 0xFF#8)) ∧
      WholeBuffer WireOpc.default 0b111#3 (commandBytes WireOpc.default initSeq) :=
  ⟨.inr ⟨by decide, _, by decide, rfl⟩, .inl ⟨by decide, initSeq, by decide, rfl⟩⟩

theorem witness_WritesAlwaysFollowTheirMode : WritesFollowTheirMode mid := by
  refine ⟨?_, fun m h => ?_⟩
  · intro pre bs r post h
    have e : mid.trace = [.modeEnter .command .ok] := rfl
    rw [e] at h
    rcases pre with _ | ⟨_, _ | _⟩ <;> cases h
  · have e : mid.seq.bodyMode = some .command := rfl
    rw [e] at h
    cases h
    exact ⟨[], rfl⟩

theorem witness_FailureAlwaysEndsItsOperation :
    FailureEndsOperation { State.reset with trace := [.modeEnter .reset (.err (.num 7))] } := by
  refine ⟨?_, fun _ _ _ _ => rfl⟩
  intro pre e f post h
  rcases pre with _ | ⟨_, _ | _⟩ <;> cases h

theorem witness_PortFrameAndRaces :
    PackOutFollowsPackIn { mid with packIn := 0xFF#8, packOut := 0xFFFFFFFF#32 } ∧
      FrameCanonical { mid with frame := [(0, 0x01#8), (1023, 0xFF#8)] } ∧
      RacedOnlyInBlit { inFlight (.run .blit false 1 .enter) with raced := [(0, 0x00#8)] } :=
  ⟨by unfold PackOutFollowsPackIn; decide, by unfold FrameCanonical; decide, .inr rfl⟩

/-- SETON 1 at its EXIT, the write of its body answered in full. -/
def leaving : State :=
  { answered (.run .seton true 0 .exit) [.ok] [] with
    linkMode := 0b111#3
    link := .command
    trace := [.modeEnter .command .ok, .txWrite [0xAF#8] (.ok 1)] }

theorem witness_EventsOnlyAtTheirPhases :
    (∃ t, step mid = .next t ∧ t.trace ≠ mid.trace) ∧ ExitsFollowBodies mid ∧ ExitsFollowBodies leaving ∧
      ∃ t, step leaving = .next t ∧ t.trace = leaving.trace ++ [.modeEnter .idle .ok] := by
  refine ⟨⟨_, rfl, by decide⟩, ⟨fun m h => ?_, fun m h => (nomatch h)⟩, ⟨fun m h => (nomatch h), fun m h => ?_⟩,
    ⟨_, rfl, rfl⟩⟩
  · have e : mid.seq.bodyMode = some .command := rfl
    rw [e] at h
    cases h
    exact ⟨[], rfl⟩
  · have e : leaving.seq.exitMode = some .command := rfl
    rw [e] at h
    cases h
    exact ⟨[], _, rfl, rfl⟩

theorem witness_OperationsDependOnTheirInputsOnly :
    SameInputs mid { mid with status := 0x01#8, errcode := 9, linkMode := 0b000#3, link := .reset } ∧
      ∃ t, Sys2Proof.core.run 2 mid = .next t :=
  ⟨⟨rfl, rfl, rfl, rfl, rfl, rfl, rfl, rfl, rfl, fun _ => rfl⟩, ⟨_, rfl⟩⟩

theorem witness_AnsweredOperationsEnd :
    SeqIsPosition mid ∧ mid.seq ≠ .ready ∧ BlockNext mid mid ∧ Answered mid :=
  ⟨rfl, by decide, .inl ⟨rfl, rfl⟩, fun _ => by decide⟩

end Sys2Proof.Machine.Slice0
end

section
namespace Sys2Proof.Machine

/-- MODE stands in the two low bits, below VALID (10_state R26). -/
@[simp] theorem linkModeOf_mode (m : Mode) : (linkModeOf m).extractLsb' 0 2 = encMode m :=
  BitVec.extractLsb'_append_eq_right

@[simp] theorem clearValid_linkModeOf (m : Mode) : clearValid (linkModeOf m) = 0#1 ++ encMode m := by
  rw [clearValid, linkModeOf_mode]

/-- Settles O20: the four encodings are closed values, and the clause for every mode is the layout of R26. -/
theorem linkModeEncodings : Obligations.LinkModeEncodings :=
  ⟨rfl, rfl, rfl, rfl, fun m => ⟨clearValid_linkModeOf m, linkModeOf_mode m⟩⟩

end Sys2Proof.Machine
end

section
namespace Sys2Proof.Machine

/-! What the meanings do, said once by their kind: the OPREQ instructions, the pack port and the wire commands. -/

/-- An instruction of OPREQ's format is an operation's, or a reserved word's. -/
theorem opreq_cases {j : Instr} (h : j.format = .opreq) :
    (∃ (op : Op) (a : Bool), j = op.instr a ∧ (op.takesArg = false → a = false)) ∨ ∃ w, j = .reserved w := by
  cases j <;> cases h
  case init => exact .inl ⟨.init, false, rfl, fun _ => rfl⟩
  case clear => exact .inl ⟨.clear, false, rfl, fun _ => rfl⟩
  case seton a => exact .inl ⟨.seton, a, rfl, fun h => nomatch h⟩
  case setinv a => exact .inl ⟨.setinv, a, rfl, fun h => nomatch h⟩
  case blit => exact .inl ⟨.blit, false, rfl, fun _ => rfl⟩
  case reserved w => exact .inr ⟨w, rfl⟩

/-- An operation's instruction is its whole life (log entry 2). -/
theorem exec_instr {op : Op} {a : Bool} (ha : op.takesArg = false → a = false) (s : State) :
    exec (op.instr a) s = s.runOp op a := by
  cases op
  case seton | setinv => rfl
  case init | clear | blit => cases ha rfl; rfl

/-- Only BLIT has BLIT's instruction. -/
theorem instr_ne_blit {op : Op} {a : Bool} (h : op.instr a ≠ .blit) : op ≠ .blit := by
  rintro rfl
  exact h rfl

/-- While an operation is in flight, any other OPREQ instruction is held (10_state R22). -/
theorem exec_held {s : State} {op : Op} {a : Bool} {i : Nat} {ph : Phase} {j : Instr} (hs : s.seq = .run op a i ph)
    (hj : j.format = .opreq) (hne : j ≠ op.instr a) : exec j s = .next s := by
  obtain ⟨op', a', rfl, ha⟩ | ⟨w, rfl⟩ := opreq_cases hj
  · rw [exec_instr ha, State.runOp, hs]
    exact if_neg hne.symm
  · simp only [exec, execReserved, hs]

/-- A wire command's meaning is that it is emitted (log entry 14). -/
theorem exec_wire {j : Instr} (h : j.format = .wire) (s : State) : exec j s = .next (s.emitCommand j) := by
  cases j <;> cases h <;> rfl

/-- The pack port's format has one instruction. -/
theorem packPort_cases {j : Instr} (h : j.format = .packPort) : ∃ b, j = .pack b := by
  cases j <;> cases h
  exact ⟨_, rfl⟩

theorem exec_pack (b : Byte) (s : State) : exec (.pack b) s = .next (s.drivePackPort b) := rfl

/-- What an OPREQ instruction can do. -/
inductive OpreqMove (j : Instr) (s t : State) : Prop
  | held (op : Op) (a : Bool) (i : Nat) (ph : Phase) (hs : s.seq = .run op a i ph) (ht : t = s)
  | accepts (op : Op) (a : Bool) (hs : s.seq = .ready) (ht : t = s.accept op a)
  | reserved (hs : s.seq = .ready) (ht : t = s.abort .illegalOp)
  | phase (op : Op) (a : Bool) (i : Nat) (ph : Phase) (st : SeqStep) (hs : s.seq = .run op a i ph)
      (hst : (prog op a)[i]? = some st) (hj : j = op.instr a) (he : PhaseEffect op a i ph st s t)

/-- A phase that answers is a phase of the step its position has. -/
theorem runPhase_effect {s t : State} {op : Op} {a : Bool} {i : Nat} {ph : Phase} (hs : s.seq = .run op a i ph)
    (h : s.runPhase op a i ph = .next t) : ∃ st, (prog op a)[i]? = some st ∧ PhaseEffect op a i ph st s t := by
  unfold State.runPhase at h
  cases hst : (prog op a)[i]? with
  | none => simp [hst] at h
  | some st =>
    simp only [hst] at h
    exact ⟨st, rfl, phase_effect hs hst h⟩

/-- The inversion of an OPREQ instruction. -/
theorem opreqMove_of_exec {j : Instr} {s t : State} (hj : j.format = .opreq) (h : exec j s = .next t) :
    OpreqMove j s t := by
  cases hs : s.seq with
  | run op a i ph =>
    by_cases hne : j = op.instr a
    · rw [hne, exec_inFlight hs] at h
      obtain ⟨st, hst, he⟩ := runPhase_effect hs h
      exact .phase op a i ph st hs hst hne he
    · rw [exec_held hs hj hne] at h
      injection h with h
      exact .held op a i ph hs h.symm
  | ready =>
    obtain ⟨op, a, rfl, ha⟩ | ⟨w, rfl⟩ := opreq_cases hj
    · rw [exec_ready hs ha] at h
      injection h with h
      exact .accepts op a hs h.symm
    · simp only [exec, execReserved, hs] at h
      injection h with h
      exact .reserved hs h.symm

/-! What no OPREQ instruction touches, and what a phase does to the registers. -/

/-- From `s` to `t` the parameters, the pack port, the offers, the host's moves and the frame are kept, and the trace and
the wire only grow. -/
structure KeepsSurroundings (s t : State) : Prop where
  params : t.params = s.params
  packIn : t.packIn = s.packIn
  packOut : t.packOut = s.packOut
  offers : t.offers = s.offers
  host : t.host = s.host
  frame : t.frame = s.frame
  trace : s.trace <+: t.trace
  wire : s.wire <+: t.wire

namespace KeepsSurroundings

theorem refl (s : State) : KeepsSurroundings s s :=
  ⟨rfl, rfl, rfl, rfl, rfl, rfl, by simp, by simp⟩

theorem trans {s t u : State} (h : KeepsSurroundings s t) (k : KeepsSurroundings t u) : KeepsSurroundings s u where
  params := k.params.trans h.params
  packIn := k.packIn.trans h.packIn
  packOut := k.packOut.trans h.packOut
  offers := k.offers.trans h.offers
  host := k.host.trans h.host
  frame := k.frame.trans h.frame
  trace := h.trace.trans k.trace
  wire := h.wire.trans k.wire

theorem accept (op : Op) (a : Bool) (s : State) : KeepsSurroundings s (s.accept op a) := by
  constructor <;> simp

theorem abort (f : Failure) (s : State) : KeepsSurroundings s (s.abort f) := by
  constructor <;> simp

theorem complete (s : State) : KeepsSurroundings s s.complete := by
  constructor <;> simp

end KeepsSurroundings

/-- `u` is `s` with an event's own change only: the trace and the wire grow, an answer is taken, the link moves. -/
structure AfterEvent (s u : State) : Prop extends KeepsSurroundings s u where
  seq : u.seq = s.seq
  status : u.status = s.status
  errcode : u.errcode = s.errcode
  wrow : u.wrow = s.wrow
  raced : u.raced = s.raced

/-- How a phase ends: the operation stays in flight, its registers as they were, or aborts, or completes. -/
inductive PhaseOutcome (op : Op) (a : Bool) (st : SeqStep) (s t : State) : Prop
  | inFlight (i : Nat) (ph : Phase) (hk : KeepsSurroundings s t) (hseq : t.seq = .run op a i ph)
      (hstatus : t.status = s.status) (herr : t.errcode = s.errcode) (hraced : t.raced = s.raced)
      (hwrow : t.wrow = s.wrow ∨ ∃ r, st = .row r)
  | aborts (f : Failure) (u : State) (hu : AfterEvent s u) (ht : t = u.abort f)
  | completes (u : State) (hu : AfterEvent s u) (ht : t = u.complete)

/-- How each of a phase's effects ends: a failure aborts, the last EXIT completes, every other stays in flight. -/
theorem PhaseEffect.outcome {op : Op} {a : Bool} {i : Nat} {ph : Phase} {st : SeqStep} {s t : State}
    (hs : s.seq = .run op a i ph) (h : PhaseEffect op a i ph st s t) : PhaseOutcome op a st s t := by
  cases h with
  | waits ht =>
    subst ht
    exact .inFlight i ph (.refl t) hs rfl rfl rfl (.inl rfl)
  | enters _ _ _ _ _ ht =>
    subst ht
    exact .inFlight i .body ⟨rfl, rfl, rfl, rfl, rfl, rfl, by simp, by simp⟩ rfl rfl rfl rfl (.inl rfl)
  | modeFails _ _ _ _ _ ht =>
    refine .aborts _ _ ?_ ht
    exact ⟨⟨rfl, rfl, rfl, rfl, rfl, rfl, by simp, by simp⟩, rfl, rfl, rfl, rfl, rfl⟩
  | writes _ _ _ _ _ _ _ _ ht =>
    subst ht
    exact .inFlight i .exit ⟨rfl, rfl, rfl, rfl, rfl, rfl, by simp, by simp⟩ rfl rfl rfl rfl (.inl rfl)
  | writeFails _ _ _ _ _ _ _ _ _ ht =>
    refine .aborts _ _ ?_ ht
    exact ⟨⟨rfl, rfl, rfl, rfl, rfl, rfl, by simp, by simp⟩, rfl, rfl, rfl, rfl, rfl⟩
  | holds _ _ _ _ ht =>
    subst ht
    exact .inFlight i .exit ⟨rfl, rfl, rfl, rfl, rfl, rfl, by simp, by simp⟩ rfl rfl rfl rfl (.inl rfl)
  | exits _ _ st' _ _ _ _ ht =>
    subst ht
    exact .inFlight (i + 1) st'.firstPhase ⟨rfl, rfl, rfl, rfl, rfl, rfl, by simp, by simp⟩ rfl rfl rfl rfl (.inl rfl)
  | completes _ _ _ _ _ _ ht =>
    refine .completes _ ?_ ht
    exact ⟨⟨rfl, rfl, rfl, rfl, rfl, rfl, by simp, by simp⟩, rfl, rfl, rfl, rfl, rfl⟩
  | delays _ st' _ _ _ ht =>
    subst ht
    exact .inFlight (i + 1) st'.firstPhase ⟨rfl, rfl, rfl, rfl, rfl, rfl, by simp, by simp⟩ rfl rfl rfl rfl (.inl rfl)
  | packs r _ hst ht =>
    subst ht
    exact .inFlight i .enter ⟨rfl, rfl, rfl, rfl, rfl, rfl, by simp, by simp⟩ rfl rfl rfl rfl (.inr ⟨r, hst⟩)

/-- A phase keeps its surroundings, however it ends. -/
theorem PhaseOutcome.surroundings {op : Op} {a : Bool} {st : SeqStep} {s t : State} (h : PhaseOutcome op a st s t) :
    KeepsSurroundings s t := by
  cases h with
  | inFlight _ _ hk => exact hk
  | aborts f u hu ht => exact ht ▸ hu.toKeepsSurroundings.trans (.abort f u)
  | completes u hu ht => exact ht ▸ hu.toKeepsSurroundings.trans (.complete u)

/-- Only a BLIT's phases touch WROW and the races. -/
theorem PhaseOutcome.wrow_raced {op : Op} {a : Bool} {i : Nat} {ph : Phase} {st : SeqStep} {s t : State}
    (h : PhaseOutcome op a st s t) (hs : s.seq = .run op a i ph) (hst : (prog op a)[i]? = some st) (hop : op ≠ .blit) :
    t.wrow = s.wrow ∧ t.raced = s.raced := by
  have hblit : s.seq.isBlit = false := by
    rw [hs]
    cases op
    case blit => exact absurd rfl hop
    all_goals rfl
  cases h with
  | inFlight _ _ _ _ _ _ hraced hwrow =>
    obtain hw | ⟨r, rfl⟩ := hwrow
    · exact ⟨hw, hraced⟩
    · cases prog_step hst with
      | row _ ho => exact absurd ho hop
  | aborts f u hu ht =>
    have hl := leaveOperation_notBlit (hu.seq ▸ hblit : u.seq.isBlit = false)
    simp [ht, hl, hu.wrow, hu.raced]
  | completes u hu ht =>
    have hl := leaveOperation_notBlit (hu.seq ▸ hblit : u.seq.isBlit = false)
    simp [ht, hl, hu.wrow, hu.raced]

/-- An OPREQ instruction keeps its surroundings. -/
theorem OpreqMove.surroundings {j : Instr} {s t : State} (h : OpreqMove j s t) : KeepsSurroundings s t := by
  cases h with
  | held _ _ _ _ _ ht => exact ht ▸ .refl s
  | accepts op a _ ht => exact ht ▸ .accept op a s
  | reserved _ ht => exact ht ▸ .abort .illegalOp s
  | phase _ _ _ _ _ hs _ _ he => exact (he.outcome hs).surroundings

/-- An OPREQ instruction other than BLIT touches neither WROW nor the races. -/
theorem OpreqMove.wrow_raced {j : Instr} {s t : State} (h : OpreqMove j s t) (hj : j ≠ .blit) :
    t.wrow = s.wrow ∧ t.raced = s.raced := by
  cases h with
  | held _ _ _ _ _ ht => exact ht ▸ ⟨rfl, rfl⟩
  | accepts _ _ _ ht => exact ht ▸ ⟨rfl, rfl⟩
  | reserved hs ht =>
    have hl := leaveOperation_notBlit (s := s) (by rw [hs]; rfl)
    simp [ht, hl]
  | phase _ _ _ _ _ hs hst hi he => exact (he.outcome hs).wrow_raced hs hst (instr_ne_blit (hi ▸ hj))

/-- STATUS and ERRCODE do not change while an operation stays in flight (10_state R24). -/
theorem OpreqMove.status_errcode {j : Instr} {s t : State} (h : OpreqMove j s t) (hs : s.seq ≠ .ready)
    (ht : t.seq ≠ .ready) : t.status = s.status ∧ t.errcode = s.errcode := by
  cases h with
  | held _ _ _ _ _ e => exact e ▸ ⟨rfl, rfl⟩
  | accepts _ _ hr => exact absurd hr hs
  | reserved hr => exact absurd hr hs
  | phase _ _ _ _ _ hr _ _ he =>
    cases he.outcome hr with
    | inFlight _ _ _ _ hstatus herr => exact ⟨hstatus, herr⟩
    | aborts f u _ e => exact absurd (e ▸ State_abort_seq f u) ht
    | completes u _ e => exact absurd (e ▸ State_complete_seq u) ht

/-- Settles O42, by the cases of an OPREQ instruction and of how a phase ends. -/
theorem operationsLeaveTheRestUnchanged : Obligations.OperationsLeaveTheRestUnchanged := by
  intro i s t hi h
  have hm := opreqMove_of_exec hi h
  have hk := hm.surroundings
  obtain ⟨es, hes⟩ := hk.trace
  obtain ⟨ws, hws⟩ := hk.wire
  exact ⟨hk.params, hk.packIn, hk.packOut, hk.offers, hk.host, fun a => by rw [hk.frame], hm.wrow_raced,
    hm.status_errcode, ⟨es, hes.symm⟩, ws, hws.symm⟩

/-- Settles O43, by the two formats: the port's one instruction, and the wire commands, which are all emitted. -/
theorem portAndWireLeaveTheRestUnchanged : Obligations.PortAndWireLeaveTheRestUnchanged := by
  intro i s t hi h
  cases hf : i.format with
  | opreq => exact absurd hf hi
  | packPort =>
    obtain ⟨b, rfl⟩ := packPort_cases hf
    rw [exec_pack] at h
    injection h with h
    subst h
    exact ⟨rfl, fun e => (nomatch e), fun _ => rfl, fun _ => rfl⟩
  | wire =>
    rw [exec_wire hf] at h
    injection h with h
    subst h
    exact ⟨rfl, fun _ => ⟨rfl, rfl⟩, fun e => (nomatch e), fun _ => rfl⟩

/-- Settles O16: `packWord` is the four bytes of `packPixelByte`, the first on top. -/
theorem packPortAnswersInEveryState : Obligations.PackPortAnswersInEveryState := by
  intro b o0 o1 o2 o3 s h
  simp only [packPixelByte, List.cons.injEq] at h
  obtain ⟨rfl, rfl, rfl, rfl, -⟩ := h
  exact exec_pack b s

/-! Whose move it is, and what the block's move runs. -/

/-- The block's move, with an operation in flight, is its instruction's (log entries 2, 4). -/
theorem step_blockNext_inFlight {s u : State} (hb : BlockNext s u) {op : Op} {a : Bool} {i : Nat} {ph : Phase}
    (hs : u.seq = .run op a i ph) : step s = exec (op.instr a) u := by
  rw [step, turn_blockNext hb, blockTurn_run hs]

/-- The block's move, at READY with a word offered, is the decoded instruction's. -/
theorem step_blockNext_offer {s u : State} (hb : BlockNext s u) {w : Byte} {ws : List Byte} (hs : u.seq = .ready)
    (ho : u.offers = w :: ws) : step s = exec (decode w) { u with offers := ws } := by
  rw [step, turn_blockNext hb, blockTurn_offer hs ho]

/-- The block's move, at READY with no word offered, changes nothing. -/
theorem step_blockNext_idle {s u : State} (hb : BlockNext s u) (hs : u.seq = .ready) (ho : u.offers = []) :
    step s = .next u := by
  rw [step, turn_blockNext hb, blockTurn_idle hs ho]

theorem blockNext_seq {s u : State} (h : BlockNext s u) : u.seq = s.seq := by
  rw [blockNext_eq h]

theorem blockNext_offers {s u : State} (h : BlockNext s u) : u.offers = s.offers := by
  rw [blockNext_eq h]

/-- Settles O25: another instruction is held, and no phase touches the offers. -/
theorem offersAreHeldWhileBusy : Obligations.OffersAreHeldWhileBusy := by
  intro s op a i ph hs
  refine ⟨fun j hj hne => exec_held hs hj hne, fun u t hb h => ?_⟩
  have hu : u.seq = .run op a i ph := (blockNext_seq hb).trans hs
  rw [step_blockNext_inFlight hb hu, exec_inFlight hu] at h
  obtain ⟨st, _, he⟩ := runPhase_effect hu h
  exact (he.outcome hu).surroundings.offers.trans (blockNext_offers hb)

/-- Settles O26, by the three cases of the block's turn, the port's move, and the state `withFetchWord` gives. -/
theorem stepRunsTheDecodedInstruction : Obligations.StepRunsTheDecodedInstruction := by
  refine ⟨fun s u hb => ?_, fun s b hs h => ?_, fun s w i h => ?_⟩
  · rw [← blockNext_seq hb, ← blockNext_offers hb]
    exact ⟨fun _ _ => step_blockNext_offer hb, fun _ _ _ _ => step_blockNext_inFlight hb, step_blockNext_idle hb⟩
  · simp only [step, State.turn, h]
  · have hd : decode (BitVec.ofNat 8 (w % 2 ^ 8)) = i := Option.some.inj h
    rw [← hd]
    exact step_offer rfl rfl rfl

/-- Settles O46, by the turn of the two moves. -/
theorem offersJoinAndStatusWritesAreIgnored : Obligations.OffersJoinAndStatusWritesAreIgnored := by
  intro s w v hs
  constructor
  · intro h
    simp only [step, State.turn, h]
  · intro h
    simp only [step, State.turn, h]

/-! STATUS and ERRCODE. -/

/-- BUSY stands in the top bit of STATUS (10_state R23). -/
theorem statusOf_busy (b : Bool) (r : BitVec 4) : (statusOf b r).getLsbD 7 = b := by
  revert r
  cases b <;> decide

/-- BUSY as STATUS was written. -/
theorem busy_of_status {s : State} {b : Bool} {r : BitVec 4} (h : s.status = statusOf b r) : s.busy = b := by
  rw [State.busy, h, statusOf_busy]

/-- RESULT as STATUS was written. -/
theorem result_of_status {s : State} {b : Bool} {r : BitVec 4} (h : s.status = statusOf b r) : s.result = r := by
  rw [State.result, h]
  exact BitVec.extractLsb'_append_eq_right

/-- The reserved bits of STATUS as it is written are 000. -/
theorem statusOf_reserved (b : Bool) (r : BitVec 4) : (statusOf b r).extractLsb' 4 3 = 0#3 := by
  revert r
  cases b <;> decide

/-- No failure has a reserved RESULT code (10_state R23). -/
theorem failure_result_le (f : Failure) : f.result.toNat ≤ 5 := by
  cases f <;> simp [Failure.result]

/-- STATUS follows seq where it was written with BUSY for not READY and a RESULT code of R23, NONE while BUSY. -/
theorem statusFollowsSeq_of_status {s : State} {b : Bool} {r : BitVec 4} (hst : s.status = statusOf b r)
    (hb : b = true ↔ s.seq ≠ .ready) (hnone : b = true → r = resultNone) (hr : r.toNat ≤ 5) : StatusFollowsSeq s := by
  rw [StatusFollowsSeq, busy_of_status hst, result_of_status hst, hst]
  exact ⟨hb, statusOf_reserved b r, hnone, hr⟩

theorem statusFollowsSeq_accept (op : Op) (a : Bool) (s : State) : StatusFollowsSeq (s.accept op a) :=
  statusFollowsSeq_of_status (State_accept_status op a s) (by simp) (fun _ => rfl) (by decide)

/-- A machine at READY with BUSY 0 and a RESULT code of R23. -/
theorem statusFollowsSeq_ready {s : State} {r : BitVec 4} (hs : s.seq = .ready) (hst : s.status = statusOf false r)
    (hr : r.toNat ≤ 5) : StatusFollowsSeq s :=
  statusFollowsSeq_of_status hst (by simp [hs]) (by simp) hr

theorem statusFollowsSeq_abort (f : Failure) (s : State) : StatusFollowsSeq (s.abort f) :=
  statusFollowsSeq_ready (State_abort_seq f s) (State_abort_status f s) (failure_result_le f)

theorem statusFollowsSeq_complete (s : State) : StatusFollowsSeq s.complete :=
  statusFollowsSeq_ready (State_complete_seq s) (State_complete_status s) (by decide)

theorem statusFollowsSeq_blockReset (bs : List Byte) (s : State) : StatusFollowsSeq (s.blockReset bs) :=
  statusFollowsSeq_ready rfl rfl (by decide)

/-- STATUS stays right where it does not change and READY is neither left nor entered. -/
theorem StatusFollowsSeq.of_inFlight {s t : State} (h : StatusFollowsSeq s) (hs : s.seq ≠ .ready) (ht : t.seq ≠ .ready)
    (hst : t.status = s.status) : StatusFollowsSeq t := by
  simpa [StatusFollowsSeq, State.busy, State.result, hst, hs, ht] using h

theorem PhaseOutcome.statusFollowsSeq {op : Op} {a : Bool} {st : SeqStep} {s t : State} (h : PhaseOutcome op a st s t)
    (hs : s.seq ≠ .ready) (hf : StatusFollowsSeq s) : StatusFollowsSeq t := by
  cases h with
  | inFlight _ _ _ hseq hstatus => exact hf.of_inFlight hs (by simp [hseq]) hstatus
  | aborts f u _ ht => exact ht ▸ statusFollowsSeq_abort f u
  | completes u _ ht => exact ht ▸ statusFollowsSeq_complete u

/-- Settles O49, move by move. -/
theorem statusAlwaysFollowsSeq : Obligations.StatusAlwaysFollowsSeq := by
  apply step_keeps StatusFollowsSeq
  case accepts => exact fun s op a _ _ _ => statusFollowsSeq_accept op a s
  case reserved => exact fun s _ _ => statusFollowsSeq_abort .illegalOp s
  case phases => exact fun _ _ _ _ _ _ _ hs _ he h => (he.outcome hs).statusFollowsSeq (by simp [hs]) h
  case resets => exact fun s _ => statusFollowsSeq_blockReset _ s
  case frames => exact fun _ _ _ h => h
  case moves | offers | ports => exact fun _ _ h => h

theorem openCode_lt (p : Params) (c : ErrCode) : openCode p c < 2 ^ p.errCodeW := Nat.mod_lt _ (Nat.two_pow_pos _)

/-- A number that fits is placed unchanged (10_state R25). -/
theorem placeCode_num {p : Params} {n : Nat} (h : n < 2 ^ p.errCodeW) : placeCode p (.num n) = n := if_pos h

/-- Every code is placed within ERRCODE's width. -/
theorem placeCode_lt (p : Params) (c : ErrCode) : placeCode p c < 2 ^ p.errCodeW := by
  cases c with
  | num n =>
    by_cases h : n < 2 ^ p.errCodeW
    · rwa [placeCode_num h]
    · rw [placeCode, if_neg h]
      exact openCode_lt p _
  | name k => exact openCode_lt p _
  | pair a b => exact openCode_lt p _

/-- ERRCODE 0 is right under every RESULT. -/
theorem errcodeFollowsResult_zero {s : State} (h : s.errcode = 0) : ErrcodeFollowsResult s :=
  ⟨fun _ => h, h ▸ Nat.two_pow_pos _⟩

theorem errcodeFollowsResult_abort (f : Failure) (s : State) : ErrcodeFollowsResult (s.abort f) := by
  cases f with
  | writeFailed | illegalOp => exact errcodeFollowsResult_zero (by simp [Failure.errcode])
  | transport c | mode c =>
    refine ⟨?_, by simpa [Failure.errcode] using placeCode_lt s.params c⟩
    simp [result_of_status (State_abort_status _ s), Failure.result]

/-- ERRCODE is 0 while an operation is in flight (10_state R24, R25). -/
theorem errcode_inFlight {s : State} (hs : s.seq ≠ .ready) (hf : StatusFollowsSeq s) (he : ErrcodeFollowsResult s) :
    s.errcode = 0 := by
  obtain ⟨hbusy, _, hnone, _⟩ := hf
  refine he.1 ?_
  rw [hnone (hbusy.mpr hs)]
  decide

theorem PhaseOutcome.errcodeFollowsResult {op : Op} {a : Bool} {st : SeqStep} {s t : State}
    (h : PhaseOutcome op a st s t) (hs : s.seq ≠ .ready) (hf : StatusFollowsSeq s) (he : ErrcodeFollowsResult s) :
    ErrcodeFollowsResult t := by
  have hz := errcode_inFlight hs hf he
  cases h with
  | inFlight _ _ _ _ _ herr => exact errcodeFollowsResult_zero (herr.trans hz)
  | aborts f u _ ht => exact ht ▸ errcodeFollowsResult_abort f u
  | completes u hu ht => exact errcodeFollowsResult_zero (by rw [ht, State_complete_errcode, hu.errcode, hz])

/-- A step keeps ERRCODE and RESULT in agreement, where STATUS follows seq. -/
theorem step_status_errcode : ∀ s t : State, StatusFollowsSeq s ∧ ErrcodeFollowsResult s → step s = .next t →
    StatusFollowsSeq t ∧ ErrcodeFollowsResult t := by
  apply step_keeps (fun s => StatusFollowsSeq s ∧ ErrcodeFollowsResult s)
  case accepts => exact fun s op a _ _ _ => ⟨statusFollowsSeq_accept op a s, errcodeFollowsResult_zero rfl⟩
  case reserved => exact fun s _ _ => ⟨statusFollowsSeq_abort .illegalOp s, errcodeFollowsResult_abort .illegalOp s⟩
  case phases =>
    intro s t op a i ph st hs _ he ⟨hf, hc⟩
    have hr : s.seq ≠ .ready := by simp [hs]
    exact ⟨(he.outcome hs).statusFollowsSeq hr hf, (he.outcome hs).errcodeFollowsResult hr hf hc⟩
  case resets => exact fun s _ => ⟨statusFollowsSeq_blockReset _ s, errcodeFollowsResult_zero rfl⟩
  case frames => exact fun _ _ _ h => h
  case moves | offers | ports => exact fun _ _ h => h

/-- No step writes the parameters (00_scope R6). -/
theorem step_params (p : Params) : ∀ s t : State, s.params = p → step s = .next t → t.params = p := by
  apply step_keeps (fun s => s.params = p)
  case accepts => exact fun _ _ _ _ h _ => h
  case reserved => exact fun s _ h => (State_abort_params .illegalOp s).trans h
  case phases => exact fun _ _ _ _ _ _ _ hs _ he h => (he.outcome hs).surroundings.params.trans h
  case resets => exact fun _ h => h
  case frames => exact fun _ _ _ h => h
  case moves | offers | ports => exact fun _ _ h => h

/-- A phase logs the answer it takes from a device, or takes none and logs a Delay at most. -/
theorem PhaseEffect.answers {op : Op} {a : Bool} {i : Nat} {ph : Phase} {st : SeqStep} {s t : State}
    (h : PhaseEffect op a i ph st s t) :
    (t.modeAnswers = s.modeAnswers ∧ t.txAnswers = s.txAnswers ∧
        (t.trace = s.trace ∨ ∃ p, t.trace = s.trace ++ [.delay p])) ∨
      (∃ m r, s.modeAnswers = r :: t.modeAnswers ∧ t.txAnswers = s.txAnswers ∧
        t.trace = s.trace ++ [.modeEnter m r]) ∨
      ∃ bs r, t.modeAnswers = s.modeAnswers ∧ s.txAnswers = r :: t.txAnswers ∧
        t.trace = s.trace ++ [.txWrite bs r] := by
  cases h with
  | waits ht => subst ht; exact .inl ⟨rfl, rfl, .inl rfl⟩
  | enters m ms _ _ hq ht => subst ht; exact .inr (.inl ⟨m, .ok, hq, rfl, rfl⟩)
  | modeFails m c ms _ hq ht => subst ht; exact .inr (.inl ⟨m, .err c, by simp [hq], by simp, by simp⟩)
  | writes m r ts _ _ _ hq _ ht => subst ht; exact .inr (.inr ⟨_, r, rfl, hq, rfl⟩)
  | writeFails m r ts f _ _ _ hq _ ht => subst ht; exact .inr (.inr ⟨st.buffer s, r, by simp, by simp [hq], by simp⟩)
  | holds m p _ _ ht => subst ht; exact .inl ⟨rfl, rfl, .inr ⟨p, rfl⟩⟩
  | exits m ms st' _ _ hq _ ht => subst ht; exact .inr (.inl ⟨.idle, .ok, hq, rfl, rfl⟩)
  | completes m ms _ _ hq _ ht => subst ht; exact .inr (.inl ⟨.idle, .ok, by simp [hq], by simp, by simp⟩)
  | delays p st' _ _ _ ht => subst ht; exact .inl ⟨rfl, rfl, .inr ⟨p, rfl⟩⟩
  | packs r _ _ ht => subst ht; exact .inl ⟨rfl, rfl, .inl rfl⟩

/-- The codes stay of their type where answers are only taken away and the trace's new codes come from answers. -/
theorem CodesOfType.of_answers {s t : State} (h : CodesOfType s) (hp : t.params = s.params)
    (hm : ∀ r ∈ t.modeAnswers, r ∈ s.modeAnswers) (hx : ∀ r ∈ t.txAnswers, r ∈ s.txAnswers)
    (htr : ∀ e ∈ t.trace, e ∈ s.trace ∨
      ∀ c, e.code? = some c → .err c ∈ s.modeAnswers ∨ .err c ∈ s.txAnswers) : CodesOfType t := by
  obtain ⟨hms, htx, hev⟩ := h
  rw [CodesOfType, hp]
  refine ⟨fun c hc => hms c (hm _ hc), fun c hc => htx c (hx _ hc), fun e he c hc => ?_⟩
  obtain hold | hnew := htr e he
  · exact hev e hold c hc
  · exact (hnew c hc).elim (hms c) (htx c)

/-- The code of a logged ModeEnter is its answer's. -/
theorem modeEnter_code {m : Mode} {r : ModeAnswer} {c : ErrCode} (h : (Event.modeEnter m r).code? = some c) :
    r = .err c := by
  cases r <;> cases h
  rfl

/-- The code of a logged TxWrite is its answer's. -/
theorem txWrite_code {bs : List Byte} {r : TxAnswer} {c : ErrCode} (h : (Event.txWrite bs r).code? = some c) :
    r = .err c := by
  cases r <;> cases h
  rfl

/-- A phase takes answers from the devices' lists and logs them. -/
theorem PhaseEffect.codesOfType {op : Op} {a : Bool} {i : Nat} {ph : Phase} {st : SeqStep} {s t : State}
    (he : PhaseEffect op a i ph st s t) (hs : s.seq = .run op a i ph) (h : CodesOfType s) : CodesOfType t := by
  have hp := (he.outcome hs).surroundings.params
  obtain ⟨hm, hx, htr⟩ | ⟨m, r, hm, hx, htr⟩ | ⟨bs, r, hm, hx, htr⟩ := he.answers
  · refine h.of_answers hp (by simp [hm]) (by simp [hx]) fun e hmem => ?_
    obtain htr | ⟨p, htr⟩ := htr
    · exact .inl (htr ▸ hmem)
    · rw [htr, List.mem_append, List.mem_singleton] at hmem
      exact hmem.imp_right fun e' c hc => by simp [e', Event.code?] at hc
  · refine h.of_answers hp (by simp +contextual [hm]) (by simp [hx]) fun e hmem => ?_
    rw [htr, List.mem_append, List.mem_singleton] at hmem
    refine hmem.imp_right fun e' c hc => .inl ?_
    rw [← modeEnter_code (e' ▸ hc), hm]
    exact List.mem_cons_self
  · refine h.of_answers hp (by simp [hm]) (by simp +contextual [hx]) fun e hmem => ?_
    rw [htr, List.mem_append, List.mem_singleton] at hmem
    refine hmem.imp_right fun e' c hc => .inr ?_
    rw [← txWrite_code (e' ▸ hc), hx]
    exact List.mem_cons_self

/-- A step keeps every code of its type, still to come or in the trace. -/
theorem step_codesOfType : ∀ s t : State, CodesOfType s → step s = .next t → CodesOfType t := by
  apply step_keeps CodesOfType
  case accepts => exact fun _ _ _ _ h _ => h
  case reserved => exact fun s _ h => h.of_answers (by simp) (by simp) (by simp) (by simp +contextual)
  case phases => exact fun _ _ _ _ _ _ _ hs _ he h => he.codesOfType hs h
  case resets => exact fun _ h => h
  case frames => exact fun _ _ _ h => h
  case moves | offers | ports => exact fun _ _ h => h

/-- Settles O50: ERRCODE with STATUS's invariant, the codes by where an event's answer comes from, the placement by the
kinds of code. -/
theorem errcodeAlwaysFollowsResult : Obligations.ErrcodeAlwaysFollowsResult := by
  refine ⟨fun s t h => ⟨fun hf hc => ?_, fun hc => ⟨?_, ?_⟩⟩, fun p => ⟨fun _ => placeCode_num, placeCode_lt p⟩⟩
  · exact (step_status_errcode s t ⟨hf, hc⟩ h).2
  · exact step_codesOfType s t hc h
  · rw [step_params s.params s t rfl h]

/-! WROW. -/

/-- A pixel byte is packed into four bytes, so a row of n bytes into 4n (41_pixel_packer R132). -/
theorem packRow_length (row : List Byte) : (packRow row).length = 4 * row.length := by
  induction row with
  | nil => rfl
  | cons b row ih =>
    rw [packRow, List.flatMap_cons, List.length_append, ← packRow, ih, List.length_cons]
    simp only [packPixelByte, List.length_cons, List.length_nil]
    omega

@[simp] theorem frameRow_length (s : State) (r : Nat) : (s.frameRow r).length = 16 := by simp [State.frameRow]

/-- What PACK leaves in WROW is a wire row. -/
theorem isWireRow_packRow_frameRow (s : State) (r : Nat) : IsWireRow (packRow (s.frameRow r)) :=
  ⟨_, frameRow_length s r, rfl⟩

/-- A position is past a PACK where its step is a ROW and its phase is not PACK. -/
theorem rowPacked_iff {op : Op} {a : Bool} {i : Nat} {ph : Phase} :
    (Position.run op a i ph).rowPacked = true ↔ (∃ r, (prog op a)[i]? = some (.row r)) ∧ ph ≠ .pack := by
  simp only [Position.rowPacked]
  split
  · simp [*]
  · simp_all

/-- A ROW step starts with its PACK. -/
theorem rowPacked_firstPhase {op : Op} {a : Bool} {i : Nat} {st : SeqStep} (h : (prog op a)[i]? = some st) :
    (Position.run op a i st.firstPhase).rowPacked = false := by
  rw [← Bool.not_eq_true, rowPacked_iff]
  rintro ⟨⟨r, hr⟩, hne⟩
  cases h.symm.trans hr
  exact hne rfl

theorem leaveOperation_wrow_length {s : State} (h : s.wrow.length = 64) : s.leaveOperation.wrow.length = 64 := by
  obtain e | e := leaveOperation_wrow s
  · rw [e, h]
  · rw [e, freeRow_length]

/-- Where no row is packed, WROW's length is all there is to keep. -/
theorem wrowHoldsRow_of_length {s : State} (h : s.wrow.length = 64) (hs : s.seq.rowPacked = false) : WrowHoldsRow s :=
  ⟨h, fun hp => by simp [hs] at hp⟩

theorem wrowHoldsRow_accept (op : Op) (a : Bool) {s : State} (h : s.wrow.length = 64) :
    WrowHoldsRow (s.accept op a) :=
  wrowHoldsRow_of_length h (by cases op <;> rfl)

theorem wrowHoldsRow_abort (f : Failure) {s : State} (h : s.wrow.length = 64) : WrowHoldsRow (s.abort f) :=
  wrowHoldsRow_of_length (by rw [State_abort_wrow, leaveOperation_wrow_length h]) (by rw [State_abort_seq]; rfl)

theorem wrowHoldsRow_complete {s : State} (h : s.wrow.length = 64) : WrowHoldsRow s.complete :=
  wrowHoldsRow_of_length (by rw [State_complete_wrow, leaveOperation_wrow_length h]) (by rw [State_complete_seq]; rfl)

/-- A row once packed stays in WROW to the end of its step. -/
theorem WrowHoldsRow.of_phase {op : Op} {a : Bool} {i : Nat} {ph ph' : Phase} {s t : State} (h : WrowHoldsRow s)
    (hs : s.seq = .run op a i ph) (hp : ph ≠ .pack) (hw : t.wrow = s.wrow) (ht : t.seq = .run op a i ph') :
    WrowHoldsRow t := by
  obtain ⟨hlen, hrow⟩ := h
  rw [WrowHoldsRow, hw]
  refine ⟨hlen, fun hpk => hrow ?_⟩
  rw [ht, rowPacked_iff] at hpk
  rw [hs, rowPacked_iff]
  exact ⟨hpk.1, hp⟩

theorem PhaseEffect.wrowHoldsRow {op : Op} {a : Bool} {i : Nat} {ph : Phase} {st : SeqStep} {s t : State}
    (he : PhaseEffect op a i ph st s t) (hs : s.seq = .run op a i ph) (h : WrowHoldsRow s) : WrowHoldsRow t := by
  cases he with
  | waits ht => exact ht ▸ h
  | enters _ _ hp _ _ ht => subst ht; exact h.of_phase hs (by simp [hp]) rfl rfl
  | modeFails _ _ _ _ _ ht => exact ht ▸ wrowHoldsRow_abort _ h.1
  | writes _ _ _ hp _ _ _ _ ht => subst ht; exact h.of_phase hs (by simp [hp]) rfl rfl
  | writeFails _ _ _ _ _ _ _ _ _ ht => exact ht ▸ wrowHoldsRow_abort _ h.1
  | holds _ _ hp _ ht => subst ht; exact h.of_phase hs (by simp [hp]) rfl rfl
  | exits _ _ _ _ _ _ hn ht => subst ht; exact wrowHoldsRow_of_length h.1 (rowPacked_firstPhase hn)
  | completes _ _ _ _ _ _ ht => exact ht ▸ wrowHoldsRow_complete h.1
  | delays _ _ _ _ hn ht => subst ht; exact wrowHoldsRow_of_length h.1 (rowPacked_firstPhase hn)
  | packs r _ _ ht =>
    subst ht
    exact ⟨by simp [packRow_length], fun _ => isWireRow_packRow_frameRow s r⟩

/-- Settles O52: PACK writes a wire row, and until the step ends no phase touches it. -/
theorem wrowAlwaysHoldsItsRow : Obligations.WrowAlwaysHoldsItsRow := by
  apply step_keeps WrowHoldsRow
  case accepts => exact fun _ op a _ h _ => wrowHoldsRow_accept op a h.1
  case reserved => exact fun _ _ h => wrowHoldsRow_abort .illegalOp h.1
  case phases => exact fun _ _ _ _ _ _ _ hs _ he h => he.wrowHoldsRow hs h
  case resets => exact fun s _ => wrowHoldsRow_of_length (freeRow_length s.draws) rfl
  case frames => exact fun _ _ _ h => h
  case moves | offers | ports => exact fun _ _ h => h

/-! The pack port, the frame and the races. -/

/-- A step keeps PACK_OUT the packed PACK_IN: only a driven port writes them, and both. -/
theorem step_packOut : ∀ s t : State, PackOutFollowsPackIn s → step s = .next t → PackOutFollowsPackIn t := by
  apply step_keeps PackOutFollowsPackIn
  case accepts => exact fun _ _ _ _ h _ => h
  case reserved => exact fun s _ h => by simpa [PackOutFollowsPackIn] using h
  case phases =>
    intro s t op a i ph st hs _ he h
    have hk := (he.outcome hs).surroundings
    rwa [PackOutFollowsPackIn, hk.packOut, hk.packIn]
  case resets => exact fun _ h => h
  case ports => exact fun _ _ _ => rfl
  case frames => exact fun _ _ _ h => h
  case moves | offers => exact fun _ _ h => h

/-- A step keeps the frame canonical: only the host writes it, at one of its 1024 addresses. -/
theorem step_frameCanonical : ∀ s t : State, FrameCanonical s → step s = .next t → FrameCanonical t := by
  apply step_keeps FrameCanonical
  case accepts => exact fun _ _ _ _ h _ => h
  case reserved => exact fun s _ h => by simpa [FrameCanonical] using h
  case phases => exact fun _ _ _ _ _ _ _ hs _ he h => by rwa [FrameCanonical, (he.outcome hs).surroundings.frame]
  case resets => exact fun _ h => h
  case frames => exact fun _ a b h => memory_write_wf b a.isLt h
  case moves | offers | ports => exact fun _ _ h => h

/-- At READY no byte is raced. -/
theorem RacedOnlyInBlit.raced_ready {s : State} (h : RacedOnlyInBlit s) (hs : s.seq = .ready) : s.raced = [] :=
  h.resolve_right (by simp [hs, Position.isBlit])

/-- An abort ends the races. -/
theorem RacedOnlyInBlit.abort {s : State} (h : RacedOnlyInBlit s) (f : Failure) : RacedOnlyInBlit (s.abort f) :=
  .inl (by rw [State_abort_raced, leaveOperation_raced s h])

/-- Completion ends the races. -/
theorem RacedOnlyInBlit.complete {s : State} (h : RacedOnlyInBlit s) : RacedOnlyInBlit s.complete :=
  .inl (by rw [State_complete_raced, leaveOperation_raced s h])

/-- An event changes nothing the races depend on. -/
theorem RacedOnlyInBlit.afterEvent {s u : State} (h : RacedOnlyInBlit s) (hu : AfterEvent s u) : RacedOnlyInBlit u := by
  rwa [RacedOnlyInBlit, hu.raced, hu.seq]

/-- Whether a BLIT is in flight does not depend on its place in the list. -/
theorem isBlit_run (op : Op) (a : Bool) (i i' : Nat) (ph ph' : Phase) :
    (Position.run op a i ph).isBlit = (Position.run op a i' ph').isBlit := by
  cases op <;> rfl

theorem PhaseOutcome.racedOnlyInBlit {op : Op} {a : Bool} {i : Nat} {ph : Phase} {st : SeqStep} {s t : State}
    (ho : PhaseOutcome op a st s t) (hs : s.seq = .run op a i ph) (h : RacedOnlyInBlit s) : RacedOnlyInBlit t := by
  cases ho with
  | inFlight i' ph' _ hseq _ _ hraced => rwa [RacedOnlyInBlit, hraced, hseq, isBlit_run op a i' i ph' ph, ← hs]
  | aborts f u hu ht => exact ht ▸ (h.afterEvent hu).abort f
  | completes u hu ht => exact ht ▸ (h.afterEvent hu).complete

/-- A write of the host joins the races only while a BLIT is in flight. -/
theorem RacedOnlyInBlit.hostFrameWrite {s : State} (h : RacedOnlyInBlit s) (a : BitVec 10) (b : Byte) :
    RacedOnlyInBlit (s.hostFrameWrite a b) := by
  by_cases hb : s.seq.isBlit = true
  · exact .inr hb
  · exact .inl (by simpa [hb] using h.resolve_right hb)

/-- A step keeps the races to a BLIT in flight. -/
theorem step_racedOnlyInBlit : ∀ s t : State, RacedOnlyInBlit s → step s = .next t → RacedOnlyInBlit t := by
  apply step_keeps RacedOnlyInBlit
  case accepts => exact fun _ _ _ hs h _ => .inl (h.raced_ready hs)
  case reserved => exact fun _ _ h => h.abort .illegalOp
  case phases => exact fun _ _ _ _ _ _ _ hs _ he h => (he.outcome hs).racedOnlyInBlit hs h
  case resets => exact fun _ _ => .inl rfl
  case frames => exact fun _ a b h => h.hostFrameWrite a b
  case moves | offers | ports => exact fun _ _ h => h

/-- Settles O57: the three step lemmas. -/
theorem portFrameAndRacesStayRight : Obligations.PortFrameAndRacesStayRight :=
  fun s t h => ⟨fun hp => step_packOut s t hp h, fun hf => step_frameCanonical s t hf h,
    fun hr => step_racedOnlyInBlit s t hr h⟩

end Sys2Proof.Machine
end

section
namespace Sys2Proof.Machine

/-! Frame addresses and the lengths of whole buffers. -/

/-- The ten address bits hold 16r + c without wrapping (20_memory R51). -/
theorem frameAddr_toNat {r c : Nat} (hr : r < 64) (hc : c < 16) : (frameAddr r c).toNat = 16 * r + c := by
  rw [frameAddr, BitVec.toNat_ofNat, Nat.mod_eq_of_lt (by omega)]

/-- The row's bits stand above the column's (20_memory R51). -/
theorem frameAddr_eq_append {r c : Nat} (hr : r < 64) (hc : c < 16) :
    frameAddr r c = BitVec.ofNat 6 r ++ BitVec.ofNat 4 c := by
  apply BitVec.eq_of_toNat_eq
  have hr' : r % 2 ^ 6 = r := Nat.mod_eq_of_lt hr
  have hc' : c % 2 ^ 4 = c := Nat.mod_eq_of_lt hc
  rw [frameAddr_toNat hr hc, BitVec.toNat_append, BitVec.toNat_ofNat, BitVec.toNat_ofNat, hr', hc',
    ← Nat.shiftLeft_add_eq_or_of_lt (by omega), Nat.shiftLeft_eq]
  omega

/-- Settles O21: 16r + c fits ten bits, and the column's four bits lie below the row's. -/
theorem frameAddressesAreRowThenColumn : Obligations.FrameAddressesAreRowThenColumn :=
  fun _ _ hr hc => ⟨frameAddr_toNat hr hc, frameAddr_eq_append hr hc⟩

/-- The lengths of the ROM's command sequences, whatever the opcode bytes are (30_encoding R81 to R85). -/
theorem commandSequences_lengths (o : WireOpc) :
    commandSequences.map (fun cmds => (commandBytes o cmds).length) = [40, 6, 6, 1, 1, 1, 1] := rfl

/-- A wire row has 64 bytes (41_pixel_packer R132). -/
theorem IsWireRow.length_eq {bs : List Byte} (h : IsWireRow bs) : bs.length = 64 := by
  obtain ⟨row, hrow, rfl⟩ := h
  rw [packRow_length, hrow]

/-- Settles O54: a command sequence has one of the ROM's lengths, a wire row has 64 bytes. -/
theorem wholeBuffersHaveFourLengths : Obligations.WholeBuffersHaveFourLengths := by
  rintro o link bs (⟨-, cmds, hc, rfl⟩ | ⟨-, hrow⟩)
  · have hl := List.mem_map_of_mem (f := fun cmds => (commandBytes o cmds).length) hc
    rw [commandSequences_lengths] at hl
    exact (by decide : [40, 6, 6, 1, 1, 1, 1] ⊆ [40, 6, 1, 64]) hl
  · simp [hrow.length_eq]

/-! Who writes the frame. -/

/-- The block's move never writes the frame (20_memory R50). -/
theorem BlockMove.frame {s t : State} (h : BlockMove s t) : t.frame = s.frame := by
  cases h with
  | waits _ _ ht => rw [ht]
  | accepts _ _ _ _ _ _ _ _ ht => rw [ht, State_accept_frame]
  | reserved _ _ _ _ _ ht => rw [ht, State_abort_frame]
  | phase _ _ _ _ _ hs hst ht => exact ((phase_effect hs hst ht).outcome hs).surroundings.frame

/-- A step keeps the frame, or is the host's write of one byte. -/
theorem step_frame {s t : State} (h : step s = .next t) :
    t.frame = s.frame ∨
      ∃ a b hs, s.host = .frameWrite a b :: hs ∧ t.frame = Memory.write s.frame a.toNat b := by
  cases step_cases h with
  | block _ hb => exact .inl hb.frame
  | letRun _ _ hb => exact .inl hb.frame
  | offer _ _ _ ht | writeStatus _ _ _ ht => exact .inl (by rw [ht])
  | blockReset _ _ ht => exact .inl (by rw [ht, State_blockReset_frame])
  | packIn _ _ _ ht => exact .inl (by rw [ht, State_drivePackPort_frame])
  | frameWrite a b hs hh ht => exact .inr ⟨a, b, hs, hh, by rw [ht, State_hostFrameWrite_frame]⟩

/-- Settles O45: no step writes the parameters, and the memory's laws say what the host's write leaves. -/
theorem onlyTheHostWritesTheFrame : Obligations.OnlyTheHostWritesTheFrame := by
  intro s t h
  refine ⟨step_params s.params s t rfl h, ?_⟩
  obtain hf | ⟨a, b, hs, hh, hf⟩ := step_frame h
  · exact .inl fun _ => by rw [hf]
  · rw [hf]
    exact .inr ⟨a, b, hs, hh, memory_read_write_same b, fun _ => memory_read_write_other s.frame b⟩

/-! What a TX body puts on the wire. -/

@[simp] theorem emit_nil (s : State) : s.emit [] = s := by
  simp [State.emit]

/-- Bytes sent in two goes are the bytes sent at once. -/
theorem emit_append (bs cs : List Byte) (s : State) : s.emit (bs ++ cs) = (s.emit bs).emit cs := by
  simp [State.emit]

/-- Wire commands run in order send the bytes of their list (30_encoding R86). -/
theorem execAll_wire {cmds : List Instr} (h : ∀ j ∈ cmds, j.format = .wire) (s : State) :
    execAll cmds s = .next (s.emit (commandBytes s.params.wireOpc cmds)) := by
  induction cmds generalizing s with
  | nil => simp [execAll, commandBytes]
  | cons j js ih =>
    obtain ⟨hj, hjs⟩ := List.forall_mem_cons.mp h
    rw [execAll, exec_wire hj]
    dsimp only
    rw [ih hjs, State_emitCommand_params, State.emitCommand, ← emit_append]
    rfl

/-- The ROM's sequences hold wire commands only (10_state R29). -/
theorem commandSequences_wire : ∀ cmds ∈ commandSequences, ∀ j ∈ cmds, j.format = .wire := by decide

/-- The commands of a TX step are wire commands. -/
theorem prog_tx_wire {op : Op} {a : Bool} {i : Nat} {m : Mode} {cmds : List Instr}
    (h : (prog op a)[i]? = some (.tx m cmds)) : ∀ j ∈ cmds, j.format = .wire := by
  cases prog_step h with
  | tx _ hc => exact commandSequences_wire cmds hc

/-- A BODY that writes, run by the instruction in flight. -/
theorem exec_write {s : State} {op : Op} {a : Bool} {i : Nat} {st : SeqStep} {m : Mode}
    (hs : s.seq = .run op a i .body) (hst : (prog op a)[i]? = some st) (hm : st.mode? = some m)
    (hk : ∀ m p, st ≠ .hold m p) :
    exec (op.instr a) s = .next (s.writeChecked (st.buffer s) (State.toPhase .exit)) := by
  rw [exec_inFlight hs, State.runPhase, hst]
  cases st with
  | tx | row => rfl
  | hold m p => exact absurd rfl (hk m p)
  | wait => cases hm

/-- An answered write leaves its bytes on the wire, whatever the answer (log entry 14). -/
theorem writeChecked_wire {s : State} {r : TxAnswer} {ts : List TxAnswer} (h : s.txAnswers = r :: ts) (bs : List Byte)
    (ph : Phase) : (s.writeChecked bs (State.toPhase ph)).wire = (s.emit bs).wire := by
  obtain ⟨hn, -⟩ | ⟨_, _, -, -, e⟩ | ⟨_, _, _, -, -, e⟩ := writeChecked_cases bs (State.toPhase ph) s
  · cases h.symm.trans hn
  · rw [e, State_toPhase_wire, State_log_wire]
  · rw [e, State_abort_wire, State_log_wire]

/-- Settles O41: both ways send the bytes of the step's commands. -/
theorem txBodyRunsItsCommands : Obligations.TxBodyRunsItsCommands := by
  intro s u op a i m cmds r ts hb hs hst hr
  have hu : u.seq = .run op a i .body := (blockNext_seq hb).trans hs
  refine ⟨_, _, execAll_wire (prog_tx_wire hst) s,
    (step_blockNext_inFlight hb hu).trans (exec_write hu hst rfl (by simp)), ?_, rfl⟩
  rw [blockNext_eq hb]
  exact writeChecked_wire (s := { s with host := u.host }) hr _ .exit

/-! The frame is read in PACK phases only: every other operation of the machine commutes with putting another frame in
the state. -/

/-- The state with another frame. -/
def State.withFrame (f : List Host.Cell) (s : State) : State := { s with frame := f }

section
variable (f : List Host.Cell) (s : State)

@[simp] theorem withFrame_seq : (s.withFrame f).seq = s.seq := rfl

@[simp] theorem withFrame_modeAnswers : (s.withFrame f).modeAnswers = s.modeAnswers := rfl

@[simp] theorem withFrame_txAnswers : (s.withFrame f).txAnswers = s.txAnswers := rfl

theorem leaveOperation_withFrame : (s.withFrame f).leaveOperation = s.leaveOperation.withFrame f := by
  unfold State.leaveOperation
  rw [withFrame_seq]
  split <;> rfl

theorem complete_withFrame : (s.withFrame f).complete = s.complete.withFrame f := by
  rw [State.complete, leaveOperation_withFrame]
  rfl

theorem abort_withFrame (e : Failure) : (s.withFrame f).abort e = (s.abort e).withFrame f := by
  simp only [State.abort, leaveOperation_withFrame]
  split <;> rfl

theorem toPhase_withFrame (ph : Phase) : (s.withFrame f).toPhase ph = (s.toPhase ph).withFrame f := by
  unfold State.toPhase
  rw [withFrame_seq]
  split <;> rfl

theorem stepDone_withFrame : (s.withFrame f).stepDone = s.stepDone.withFrame f := by
  unfold State.stepDone
  rw [withFrame_seq]
  split
  · split
    · rfl
    · exact complete_withFrame f s
  · rfl

theorem modeEnter_withFrame (m : Mode) {k : State → State} (hk : ∀ t, k (t.withFrame f) = (k t).withFrame f) :
    (s.withFrame f).modeEnter m k = (s.modeEnter m k).withFrame f := by
  unfold State.modeEnter
  rw [withFrame_modeAnswers]
  split
  · rfl
  next rest _ =>
    exact hk { s.log (.modeEnter m .ok) with modeAnswers := rest, linkMode := linkModeOf m, link := m }
  next c rest _ =>
    exact abort_withFrame f { s.log (.modeEnter m (.err c)) with modeAnswers := rest } (.mode c)

theorem writeChecked_withFrame (bs : List Byte) {k : State → State}
    (hk : ∀ t, k (t.withFrame f) = (k t).withFrame f) :
    (s.withFrame f).writeChecked bs k = (s.writeChecked bs k).withFrame f := by
  unfold State.writeChecked
  rw [withFrame_txAnswers]
  split
  · rfl
  next r rest _ =>
    dsimp only
    split
    next e _ => exact abort_withFrame f { (s.emit bs).log (.txWrite bs r) with txAnswers := rest } e
    · exact hk { (s.emit bs).log (.txWrite bs r) with txAnswers := rest }

/-- A step's buffer holds no byte of the frame itself: a row is sent from WROW (20_memory R61). -/
theorem buffer_withFrame (st : SeqStep) : st.buffer (s.withFrame f) = st.buffer s := by
  cases st <;> rfl

end

/-- At READY a reserved word aborts (10_state R24, 60_exceptions R205). -/
theorem exec_reserved_ready {s : State} (h : s.seq = .ready) (w : Byte) :
    exec (.reserved w) s = .next (s.abort .illegalOp) := by
  simp only [exec, execReserved, h]

/-- A phase other than PACK does the same under another frame. -/
theorem exec_phase_withFrame {s t : State} {op : Op} {a : Bool} {i : Nat} {ph : Phase} {st : SeqStep}
    (hs : s.seq = .run op a i ph) (hst : (prog op a)[i]? = some st) (hp : ph ≠ .pack)
    (h : s.phaseOf st ph = .next t) (f : List Host.Cell) :
    exec (op.instr a) (s.withFrame f) = .next (t.withFrame f) := by
  have hs' : (s.withFrame f).seq = .run op a i ph := hs
  cases phaseOf_cases h with
  | enter m hm hph ht =>
    subst hph ht
    rw [exec_enter hs' hst hm, modeEnter_withFrame f s m fun t => toPhase_withFrame f t .body]
  | write m hm hph hk ht =>
    subst hph ht
    rw [exec_write hs' hst hm hk, buffer_withFrame, writeChecked_withFrame f s _ fun t => toPhase_withFrame f t .exit]
  | hold m p hst' hph ht =>
    subst hst' hph ht
    rw [exec_inFlight hs', State.runPhase, hst]
    exact congrArg _ (toPhase_withFrame f (s.log (.delay p)) .exit)
  | exit m hm hph ht =>
    subst hph ht
    rw [exec_exit hs' hst hm, modeEnter_withFrame f s .idle (stepDone_withFrame f)]
  | wait p hst' hph ht =>
    subst hst' hph ht
    rw [exec_inFlight hs', State.runPhase, hst]
    exact congrArg _ (stepDone_withFrame f (s.log (.delay p)))
  | pack _ _ hph => exact absurd hph hp

/-- An OPREQ instruction outside PACK does the same under another frame. -/
theorem exec_opreq_withFrame {j : Instr} {s t : State} (hj : j.format = .opreq)
    (hp : ∀ op a i, s.seq ≠ .run op a i .pack) (h : exec j s = .next t) (f : List Host.Cell) :
    exec j (s.withFrame f) = .next (t.withFrame f) := by
  cases hs : s.seq with
  | run op a i ph =>
    by_cases hne : j = op.instr a
    · subst hne
      rw [exec_inFlight hs, State.runPhase] at h
      cases hst : (prog op a)[i]? with
      | none => simp [hst] at h
      | some st =>
        simp only [hst] at h
        exact exec_phase_withFrame hs hst (by rintro rfl; exact hp op a i hs) h f
    · rw [exec_held hs hj hne] at h
      injection h with h
      rw [exec_held (s := s.withFrame f) hs hj hne, h]
  | ready =>
    have hs' : (s.withFrame f).seq = .ready := hs
    obtain ⟨op, a, rfl, ha⟩ | ⟨w, rfl⟩ := opreq_cases hj
    · rw [exec_ready hs ha] at h
      injection h with h
      rw [exec_ready hs' ha, ← h]
      rfl
    · rw [exec_reserved_ready hs] at h
      injection h with h
      rw [exec_reserved_ready hs', abort_withFrame, h]

/-- Settles O44: by the format. Only an operation's PACK phase reads the frame. -/
theorem frameIsReadOnlyInPack : Obligations.FrameIsReadOnlyInPack := by
  intro i s t f hp h
  cases hf : i.format with
  | opreq => exact exec_opreq_withFrame hf hp h f
  | packPort =>
    obtain ⟨b, rfl⟩ := packPort_cases hf
    rw [exec_pack] at h ⊢
    injection h with h
    rw [← h]
    rfl
  | wire =>
    rw [exec_wire hf] at h ⊢
    injection h with h
    rw [← h]
    rfl

end Sys2Proof.Machine
end

section
namespace Sys2Proof.Machine

/-! What joins the wire: nothing but the bytes of the TxWrite a position asks for. -/

/-- At a BODY the outstanding write is the step's buffer. -/
theorem outstandingWrite_body {s : State} {op : Op} {a : Bool} {i : Nat} {st : SeqStep}
    (hs : s.seq = .run op a i .body) (hst : (prog op a)[i]? = some st) : s.outstandingWrite = st.buffer s := by
  simp only [State.outstandingWrite, hs, hst]

/-- Of a phase's effects only a BODY's write, whatever its answer, puts bytes on the wire. -/
theorem PhaseEffect.wire_cases {op : Op} {a : Bool} {i : Nat} {ph : Phase} {st : SeqStep} {s t : State}
    (h : PhaseEffect op a i ph st s t) : t.wire = s.wire ∨ ph = .body ∧ t.wire = (s.emit (st.buffer s)).wire := by
  cases h with
  | waits ht => exact .inl (by rw [ht])
  | modeFails _ _ _ _ _ ht => exact .inl (by rw [ht, State_abort_wire])
  | completes _ _ _ _ _ _ ht => exact .inl (by rw [ht, State_complete_wire])
  | writes _ _ _ hp _ _ _ _ ht => exact .inr ⟨hp, by rw [ht]; rfl⟩
  | writeFails _ _ _ _ hp _ _ _ _ ht => exact .inr ⟨hp, by rw [ht, State_abort_wire]; rfl⟩
  | enters _ _ _ _ _ ht | exits _ _ _ _ _ _ _ ht | holds _ _ _ _ ht | delays _ _ _ _ _ ht | packs _ _ _ ht =>
    exact .inl (by rw [ht])

/-- The block's move keeps the wire, or puts the outstanding write on it. -/
theorem BlockMove.wire_cases {s t : State} (h : BlockMove s t) :
    t.wire = s.wire ∨ t.wire = (s.emit s.outstandingWrite).wire := by
  cases h with
  | waits _ _ ht => exact .inl (by rw [ht])
  | accepts _ _ _ _ _ _ _ _ ht => exact .inl (by rw [ht, State_accept_wire])
  | reserved _ _ _ _ _ ht => exact .inl (by rw [ht, State_abort_wire])
  | phase op a i ph st hs hst ht =>
    obtain hw | ⟨rfl, hw⟩ := (phase_effect hs hst ht).wire_cases
    · exact .inl hw
    · exact .inr (by rw [outstandingWrite_body hs hst, hw])

/-- A step keeps the wire, or puts the outstanding write on it: a BODY's answered write, or one that block reset let
through (log entries 13, 14). -/
theorem step_wire_cases {s t : State} (h : step s = .next t) :
    t.wire = s.wire ∨ t.wire = (s.emit s.outstandingWrite).wire := by
  cases step_cases h with
  | block _ hb => exact hb.wire_cases
  | letRun _ _ hb => exact hb.wire_cases
  | offer _ _ _ ht | writeStatus _ _ _ ht => exact .inl (by rw [ht])
  | packIn _ _ _ ht => exact .inl (by rw [ht, State_drivePackPort_wire])
  | frameWrite _ _ _ _ ht => exact .inl (by rw [ht, State_hostFrameWrite_wire])
  | blockReset _ _ ht =>
    rw [ht, State_blockReset_wire]
    split
    · exact .inr rfl
    · exact .inl rfl

/-- Where no BODY is next, no write is outstanding. -/
theorem outstandingWrite_cases (s : State) :
    s.outstandingWrite = [] ∨ ∃ op a i st, s.seq = .run op a i .body ∧ (prog op a)[i]? = some st := by
  unfold State.outstandingWrite
  split
  next op a i hs =>
    cases hst : (prog op a)[i]? with
    | none => exact .inl rfl
    | some st => exact .inr ⟨op, a, i, st, hs, hst⟩
  · exact .inl rfl

/-- The outstanding write is empty, or a whole buffer of the bracket's mode: a TX's command sequence, or the packed row
that WROW holds. -/
theorem outstandingWrite_whole {s : State} (hl : LinkModeTrue s) (hw : WrowHoldsRow s) :
    s.outstandingWrite = [] ∨ WholeBuffer s.params.wireOpc s.linkMode s.outstandingWrite := by
  obtain hnil | ⟨op, a, i, st, hs, hst⟩ := outstandingWrite_cases s
  · exact .inl hnil
  obtain ⟨-, -, -, hmode⟩ := hl
  have hinside : s.seq.insideMode = st.mode? := by simp [hs, Position.insideMode, hst]
  rw [outstandingWrite_body hs hst]
  cases prog_step hst with
  | hold | wait => exact .inl rfl
  | tx cmds hc => exact .inr (.inl ⟨hmode .command hinside, cmds, hc, rfl⟩)
  | row r =>
    have hpacked : s.seq.rowPacked = true := by
      rw [hs, rowPacked_iff]
      exact ⟨⟨r, hst⟩, by decide⟩
    exact .inr (.inr ⟨hmode .data hinside, hw.2 hpacked⟩)

/-- One whole buffer more on the wire. -/
theorem WireInWholeBuffers.emit {s t : State} {bs : List Byte} (h : WireInWholeBuffers s)
    (hbs : WholeBuffer s.params.wireOpc s.linkMode bs) (hp : t.params = s.params) (ht : t.wire = (s.emit bs).wire) :
    WireInWholeBuffers t := by
  obtain ⟨bufs, hwire, hbufs⟩ := h
  refine ⟨bufs ++ [(s.linkMode, bs)], by simp [ht, hwire], fun b hb => ?_⟩
  rw [hp]
  rw [List.mem_append, List.mem_singleton] at hb
  obtain hb | rfl := hb
  · exact hbufs b hb
  · exact hbs

/-- Settles O53: only the outstanding write joins the wire, and it is a whole buffer. -/
theorem wireAlwaysInWholeBuffers : Obligations.WireAlwaysInWholeBuffers := by
  intro s t hl hw hbufs h
  have hp : t.params = s.params := step_params s.params s t rfl h
  have same (e : t.wire = s.wire) : WireInWholeBuffers t := by rwa [WireInWholeBuffers, e, hp]
  obtain hsame | hemit := step_wire_cases h
  · exact same hsame
  · obtain hnil | hwhole := outstandingWrite_whole hl hw
    · exact same (by rw [hemit, hnil, emit_nil])
    · exact hbufs.emit hwhole hp hemit

end Sys2Proof.Machine
end

section
namespace Sys2Proof.Machine

/-! The wire's decoder and encoder. -/

/-- Every wire command is its opcode byte and its operand bytes, which build it again (30_encoding R80). -/
theorem wireForm (i : Instr) : Laws.WireForm.Statement i := by
  cases i
  case init => exact Laws.WireForm.init
  case clear => exact Laws.WireForm.clear
  case seton a => exact Laws.WireForm.seton a
  case setinv a => exact Laws.WireForm.setinv a
  case blit => exact Laws.WireForm.blit
  case reserved w => exact Laws.WireForm.reserved w
  case pack b => exact Laws.WireForm.pack b
  case opcDisplayOff => exact Laws.WireForm.opcDisplayOff
  case opcDisplayOn => exact Laws.WireForm.opcDisplayOn
  case opcSetClock v => exact Laws.WireForm.opcSetClock v
  case opcSetMux v => exact Laws.WireForm.opcSetMux v
  case opcSetOffset v => exact Laws.WireForm.opcSetOffset v
  case opcSetStartLine v => exact Laws.WireForm.opcSetStartLine v
  case opcMasterConfig v => exact Laws.WireForm.opcMasterConfig v
  case opcSetRemap v => exact Laws.WireForm.opcSetRemap v
  case opcSetCurrentFull => exact Laws.WireForm.opcSetCurrentFull
  case opcSetGrayTable d0 d1 d2 d3 d4 d5 d6 d7 => exact Laws.WireForm.opcSetGrayTable d0 d1 d2 d3 d4 d5 d6 d7
  case opcSetContrast v => exact Laws.WireForm.opcSetContrast v
  case opcSetRowPeriod v => exact Laws.WireForm.opcSetRowPeriod v
  case opcSetPhaseLen v => exact Laws.WireForm.opcSetPhaseLen v
  case opcSetPrechargeLevel v => exact Laws.WireForm.opcSetPrechargeLevel v
  case opcSetPrechargeEnable v => exact Laws.WireForm.opcSetPrechargeEnable v
  case opcSetVcomh v => exact Laws.WireForm.opcSetVcomh v
  case opcSetVsl v => exact Laws.WireForm.opcSetVsl v
  case opcNormalDisplay => exact Laws.WireForm.opcNormalDisplay
  case opcInvertDisplay => exact Laws.WireForm.opcInvertDisplay
  case opcGfxAccel v => exact Laws.WireForm.opcGfxAccel v
  case opcDrawRect d0 d1 d2 d3 d4 => exact Laws.WireForm.opcDrawRect d0 d1 d2 d3 d4
  case opcSetColAddr lo hi => exact Laws.WireForm.opcSetColAddr lo hi
  case opcSetRowAddr lo hi => exact Laws.WireForm.opcSetRowAddr lo hi

/-- The table of 30_encoding R80 has every name. -/
theorem wireName_mem_all (n : WireName) : n ∈ WireName.all := by
  cases n <;> decide

/-- A byte's name has that byte as its opcode. -/
theorem code_of_nameOf {o : WireOpc} {b : Byte} {n : WireName} (h : o.nameOf b = some n) : o.code n = b := by
  simpa using List.find?_some h

/-- An injective WIRE_OPC gives no two names one opcode byte. -/
theorem code_inj {o : WireOpc} (ho : o.Injective) {m n : WireName} (h : o.code m = o.code n) : m = n := by
  obtain ⟨i, hi, rfl⟩ := List.getElem_of_mem (wireName_mem_all m)
  obtain ⟨j, hj, rfl⟩ := List.getElem_of_mem (wireName_mem_all n)
  have hmap : (WireName.all.map o.code)[i]'(by rwa [List.length_map]) =
      (WireName.all.map o.code)[j]'(by rwa [List.length_map]) := by rw [List.getElem_map, List.getElem_map, h]
  obtain rfl : i = j := (List.getElem_inj ho).mp hmap
  rfl

/-- Under an injective WIRE_OPC an opcode byte names its own command. -/
theorem nameOf_code {o : WireOpc} (ho : o.Injective) (n : WireName) : o.nameOf (o.code n) = some n := by
  obtain ⟨m, hm⟩ : ∃ m, o.nameOf (o.code n) = some m :=
    Option.isSome_iff_exists.mp (List.find?_isSome.mpr ⟨n, wireName_mem_all n, beq_self_eq_true _⟩)
  rw [hm, code_inj ho (code_of_nameOf hm)]

/-- What the operand bytes of a name build is a wire command, whose encoding is the name's opcode and those bytes. By
how many operand bytes the name takes (30_encoding R80): a list of any other length builds nothing. -/
theorem encode_build {n : WireName} {ops : List Byte} {i : Instr} (h : n.build ops = some i) :
    i.format = .wire ∧ ∀ o : WireOpc, encode o i = o.code n :: ops := by
  cases n
  case displayOff | displayOn | setCurrentFull | normalDisplay | invertDisplay =>
    obtain _ | _ := ops <;> cases h
    exact ⟨rfl, fun _ => rfl⟩
  case setColAddr | setRowAddr =>
    obtain _ | ⟨_, _ | ⟨_, _ | _⟩⟩ := ops <;> cases h
    exact ⟨rfl, fun _ => rfl⟩
  case drawRect =>
    obtain _ | ⟨_, _ | ⟨_, _ | ⟨_, _ | ⟨_, _ | ⟨_, _ | _⟩⟩⟩⟩⟩ := ops <;> cases h
    exact ⟨rfl, fun _ => rfl⟩
  case setGrayTable =>
    obtain _ | ⟨_, _ | ⟨_, _ | ⟨_, _ | ⟨_, _ | ⟨_, _ | ⟨_, _ | ⟨_, _ | ⟨_, _ | _⟩⟩⟩⟩⟩⟩⟩⟩ := ops <;> cases h
    exact ⟨rfl, fun _ => rfl⟩
  all_goals
    obtain _ | ⟨_, _ | _⟩ := ops <;> cases h
    exact ⟨rfl, fun _ => rfl⟩

/-- Where a command's encoding stands first in a stream, the decoder takes it and leaves the rest. -/
theorem decodeWire_encode {o : WireOpc} (ho : o.Injective) {i : Instr} (hi : i.format = .wire) (rest : List Byte) :
    decodeWire o (encode o i ++ rest) = .ok (i, rest) := by
  obtain ⟨n, ops, hlen, hbuild, henc⟩ := wireForm i hi
  have htake : (ops ++ rest).take n.operandCount = ops := List.take_left' hlen
  have hdrop : (ops ++ rest).drop n.operandCount = rest := List.drop_left' hlen
  simp only [henc, List.cons_append, decodeWire, nameOf_code ho, htake, hdrop, hbuild]

/-- Every instruction has a word at least. -/
theorem encode_ne_nil (o : WireOpc) (i : Instr) : encode o i ≠ [] := by
  cases i <;> exact List.cons_ne_nil _ _

/-- With room for each command, the split of an encoded list is the list. -/
theorem splitWithin_commandBytes {o : WireOpc} (ho : o.Injective) {cmds : List Instr}
    (h : ∀ i ∈ cmds, i.format = .wire) {k : Nat} (hk : cmds.length ≤ k) :
    splitWithin o k (commandBytes o cmds) = .ok cmds := by
  induction cmds generalizing k with
  | nil => rw [commandBytes, List.flatMap_nil, splitWithin]
  | cons i is ih =>
    obtain ⟨hi, his⟩ := List.forall_mem_cons.mp h
    obtain ⟨k, rfl⟩ : ∃ k', k = k' + 1 := Nat.exists_eq_add_of_le' (by simp at hk; omega)
    have hdec := decodeWire_encode ho hi (commandBytes o is)
    have hrest := ih his (k := k) (by simpa using hk)
    obtain ⟨b, bs, hb⟩ := List.exists_cons_of_ne_nil (encode_ne_nil o i)
    rw [hb, List.cons_append] at hdec
    rw [commandBytes, List.flatMap_cons, ← commandBytes, hb, List.cons_append, splitWithin]
    simp only [hdec, hrest]

/-- A stream has a byte at least for each of its commands. -/
theorem length_le_commandBytes (o : WireOpc) (cmds : List Instr) : cmds.length ≤ (commandBytes o cmds).length := by
  induction cmds with
  | nil => simp
  | cons i is ih =>
    have hpos := List.length_pos_iff.mpr (encode_ne_nil o i)
    rw [commandBytes, List.flatMap_cons, ← commandBytes, List.length_append, List.length_cons]
    omega

/-- Settles O6: the stream's length leaves room for each of its commands. -/
theorem commandStreamSplitsIntoItsCommands : Obligations.CommandStreamSplitsIntoItsCommands :=
  fun o cmds ho h => splitWithin_commandBytes ho h (length_le_commandBytes o cmds)

/-- Settles O7: the operand bytes the decoder takes are those it builds the command from. -/
theorem wireDecoderReadsTheEncoding : Obligations.WireDecoderReadsTheEncoding := by
  intro o bs rest i h
  cases bs with
  | nil => cases h
  | cons b bs =>
    simp only [decodeWire] at h
    cases hn : o.nameOf b with
    | none => simp [hn] at h
    | some n =>
      cases hb : n.build (bs.take n.operandCount) with
      | none => simp [hn, hb] at h
      | some j =>
        simp only [hn, hb] at h
        cases h
        obtain ⟨hf, henc⟩ := encode_build hb
        refine ⟨hf, ?_⟩
        rw [henc, code_of_nameOf hn, List.cons_append, List.take_append_drop]

end Sys2Proof.Machine
end

section
namespace Sys2Proof.Machine

/-! The decoder of OPREQ. -/

/-- 30_encoding R73, over the 256 words. -/
theorem legalWord_iff_mem : ∀ w : Byte,
    legalWord w = true ↔ w ∈ [0x01#8, 0x02#8, 0x03#8, 0x13#8, 0x04#8, 0x14#8, 0x05#8] := by decide

/-- The field condition of 30_encoding R73. -/
theorem legalWord_iff_fields (w : Byte) :
    legalWord w = true ↔
      w.extractLsb' 5 3 = 0#3 ∧
        ((w.extractLsb' 0 4 ∈ [0x1#4, 0x2#4, 0x5#4] ∧ w.getLsbD 4 = false) ∨ w.extractLsb' 0 4 ∈ [0x3#4, 0x4#4]) := by
  simp only [legalWord, Bool.and_eq_true, Bool.or_eq_true, beq_iff_eq, List.mem_cons, List.not_mem_nil, or_false,
    or_assoc]

/-- The decoder answers RESERVED on the words of 30_encoding R74 and no other of the 256. -/
theorem legalWord_false_iff_decode : ∀ w : Byte, legalWord w = false ↔ decode w = .reserved w := by decide

/-- A legal word is an operation's. -/
theorem decode_of_legal {w : Byte} (h : legalWord w = true) :
    ∃ (op : Op) (a : Bool), decode w = op.instr a ∧ (op.takesArg = false → a = false) := by
  obtain hop | hres := decode_cases w
  · exact hop
  · rw [(legalWord_false_iff_decode w).mpr hres] at h
    cases h

/-- The decoder loses no bit: on a legal word by the table of 30_encoding R71, on a reserved one by its payload. -/
theorem encode_decode (o : WireOpc) (w : Byte) : encode o (decode w) = [w] := by
  cases h : legalWord w with
  | false => rw [(legalWord_false_iff_decode w).mp h, encode]
  | true =>
    have hmem := (legalWord_iff_mem w).mp h
    simp only [List.mem_cons, List.not_mem_nil, or_false] at hmem
    obtain rfl | rfl | rfl | rfl | rfl | rfl | rfl := hmem <;> rfl

/-- An operation's instruction is well-formed. -/
theorem wellFormed_instr (op : Op) (a : Bool) : (op.instr a).wellFormed = true := by
  cases op <;> rfl

/-- What the OPREQ decoder answers is well-formed. -/
theorem wellFormed_decode (w : Byte) : (decode w).wellFormed = true := by
  obtain ⟨op, a, hd, -⟩ | hd := decode_cases w
  · rw [hd, wellFormed_instr]
  · rw [hd, Instr.wellFormed, (legalWord_false_iff_decode w).mpr hd, Bool.not_false]

/-- An operation's word decodes to it (30_encoding R71). -/
theorem decodeAs_encode_instr (o : WireOpc) {op : Op} {a : Bool} (ha : op.takesArg = false → a = false) :
    decodeAs .opreq o (encode o (op.instr a)) = some (op.instr a) := by
  cases op
  case seton | setinv => cases a <;> rfl
  case init | clear | blit => cases ha rfl; rfl

/-- Settles O5, by format: the words of OPREQ, the port's byte, and a wire command with no byte after it. -/
theorem decodeOfEncodeIsTheInstruction : Obligations.DecodeOfEncodeIsTheInstruction := by
  intro o i ho hwf
  cases hf : i.format with
  | opreq =>
    obtain ⟨op, a, rfl, ha⟩ | ⟨w, rfl⟩ := opreq_cases hf
    · exact decodeAs_encode_instr o ha
    · have hlegal : legalWord w = false := by simpa [Instr.wellFormed] using hwf
      exact congrArg some ((legalWord_false_iff_decode w).mp hlegal)
  | packPort =>
    obtain ⟨b, rfl⟩ := packPort_cases hf
    rfl
  | wire =>
    have hdec := decodeWire_encode ho hf []
    rw [List.append_nil] at hdec
    simp only [decodeAs, hdec]

/-- Settles O1: the table of R71, word by word. -/
theorem requestWordsDecodeToOperations : Obligations.RequestWordsDecodeToOperations :=
  ⟨rfl, rfl, rfl, rfl, rfl, rfl, rfl, rfl, rfl, rfl⟩

/-- Settles O2: the words and the decoder over all 256, the field condition for any word, and acceptance. -/
theorem exactlySevenWordsAreLegal : Obligations.ExactlySevenWordsAreLegal := by
  intro w
  refine ⟨legalWord_iff_mem w, legalWord_iff_fields w, legalWord_false_iff_decode w, fun s hw hs => ?_⟩
  obtain ⟨op, a, hd, ha⟩ := decode_of_legal hw
  rw [hd]
  exact ⟨_, exec_ready hs ha, by simp, rfl, rfl⟩

/-- Settles O3, by the decoder's lemmas. -/
theorem requestDecoderKeepsTheWord : Obligations.RequestDecoderKeepsTheWord :=
  fun o w => ⟨encode_decode o w, wellFormed_decode w⟩

/-- Settles O4: each sample is a closed value. -/
theorem sampleWordsDecode : Obligations.SampleWordsDecode :=
  ⟨rfl, rfl, rfl, rfl, rfl, rfl⟩

/-- Settles O8: each line is its word. -/
theorem assemblerLinesAreRequestWords : Obligations.AssemblerLinesAreRequestWords :=
  ⟨rfl, fun _ => rfl⟩

/-- At READY a reserved word leaves its RESULT and ERRCODE, and nothing else (30_encoding R74). -/
theorem abort_illegalOp_ready {s : State} (hs : s.seq = .ready) :
    s.abort .illegalOp = { s with status := 0x05#8, errcode := 0 } := by
  have hleave : s.leaveOperation = s := by
    rw [leaveOperation_notBlit (by rw [hs]; rfl), ← hs]
  rw [abort_illegalOp, hleave, ← hs]
  rfl

/-- Settles O24: the decoder's lemma, the abort at READY, and the count over the 256 words. -/
theorem reservedWordsReportIllegalOp : Obligations.ReservedWordsReportIllegalOp := by
  refine ⟨fun w s hw hs => ⟨(legalWord_false_iff_decode w).mp hw, ?_⟩, by decide +kernel⟩
  rw [exec_reserved_ready hs, abort_illegalOp_ready hs]

/-! The command ROM and the wire commands' meanings. -/

/-- Settles O9: the sequences are constants but for the opcode bytes. -/
theorem commandRomBytes : Obligations.CommandRomBytes :=
  fun _ => ⟨rfl, rfl, by decide, rfl, rfl⟩

/-- Settles O10: each command is its opcode byte, and the two bytes of INIT_SEQ stand at constant places. -/
theorem singleCommandBytes : Obligations.SingleCommandBytes :=
  fun _ => ⟨rfl, rfl, rfl, rfl, rfl, rfl⟩

/-- Settles O40: every wire command is emitted, and its encoding is its opcode byte and its operand bytes. -/
theorem wireCommandsEmitOpcodeThenOperands : Obligations.WireCommandsEmitOpcodeThenOperands := by
  intro s v lo hi d0 d1 d2 d3 d4 d5 d6 d7 o sends ho hsends
  have hexec (j : Instr) (hj : j.format = .wire) : exec j s = .next (sends (encode o j)) := by
    rw [exec_wire hj, hsends, ho]
    rfl
  exact ⟨hexec _ rfl, hexec _ rfl, hexec _ rfl, hexec _ rfl, hexec _ rfl, hexec _ rfl, hexec _ rfl, hexec _ rfl,
    hexec _ rfl, hexec _ rfl, hexec _ rfl, hexec _ rfl, hexec _ rfl, hexec _ rfl, hexec _ rfl, hexec _ rfl,
    hexec _ rfl, hexec _ rfl, hexec _ rfl, hexec _ rfl, hexec _ rfl, hexec _ rfl, hexec _ rfl⟩

end Sys2Proof.Machine
end

section
namespace Sys2Proof.Machine

/-! The phases of a bracket run forwards, each with the answer it gets (40_mode R111 to R114). -/

/-- A ModeEnter answered Ok goes on in its mode (40_mode R100). -/
theorem modeEnter_ok {s : State} {ms : List ModeAnswer} (h : s.modeAnswers = .ok :: ms) (m : Mode)
    (k : State → State) :
    s.modeEnter m k = k { s.log (.modeEnter m .ok) with modeAnswers := ms, linkMode := linkModeOf m, link := m } := by
  simp only [State.modeEnter, h]

/-- A ModeEnter answered Err(c) aborts with ERR_MODE (40_mode R111, R113). -/
theorem modeEnter_err {s : State} {c : ErrCode} {ms : List ModeAnswer} (h : s.modeAnswers = .err c :: ms) (m : Mode)
    (k : State → State) :
    s.modeEnter m k = State.abort (.mode c) { s.log (.modeEnter m (.err c)) with modeAnswers := ms } := by
  simp only [State.modeEnter, h]

/-- A write whose answer passes the write check goes on (40_mode R104). -/
theorem writeChecked_ok {s : State} {bs : List Byte} {r : TxAnswer} {ts : List TxAnswer} (h : s.txAnswers = r :: ts)
    (hw : writeCheck bs.length r = none) (k : State → State) :
    s.writeChecked bs k = k { (s.emit bs).log (.txWrite bs r) with txAnswers := ts } := by
  simp only [State.writeChecked, h, hw]

/-- A write whose answer fails the write check aborts (40_mode R104). -/
theorem writeChecked_fails {s : State} {bs : List Byte} {r : TxAnswer} {ts : List TxAnswer} {f : Failure}
    (h : s.txAnswers = r :: ts) (hw : writeCheck bs.length r = some f) (k : State → State) :
    s.writeChecked bs k = State.abort f { (s.emit bs).log (.txWrite bs r) with txAnswers := ts } := by
  simp only [State.writeChecked, h, hw]

/-- A step done, with a step after it in the list. -/
theorem stepDone_next {s : State} {op : Op} {a : Bool} {i : Nat} {ph : Phase} {st : SeqStep}
    (hs : s.seq = .run op a i ph) (hn : (prog op a)[i + 1]? = some st) :
    s.stepDone = { s with seq := .run op a (i + 1) st.firstPhase } := by
  simp only [State.stepDone, hs, hn]

/-- The last step done. -/
theorem stepDone_last {s : State} {op : Op} {a : Bool} {i : Nat} {ph : Phase} (hs : s.seq = .run op a i ph)
    (hn : (prog op a)[i + 1]? = none) : s.stepDone = s.complete := by
  simp only [State.stepDone, hs, hn]

/-- A HOLD's BODY, run by the instruction in flight. -/
theorem exec_hold {s : State} {op : Op} {a : Bool} {i : Nat} {m : Mode} {p : DelayParam}
    (hs : s.seq = .run op a i .body) (hst : (prog op a)[i]? = some (.hold m p)) :
    exec (op.instr a) s = .next (s.delay p (State.toPhase .exit)) := by
  rw [exec_inFlight hs, State.runPhase, hst]
  rfl

/-- A WAIT's DELAY, run by the instruction in flight. -/
theorem exec_wait {s : State} {op : Op} {a : Bool} {i : Nat} {p : DelayParam} (hs : s.seq = .run op a i .delay)
    (hst : (prog op a)[i]? = some (.wait p)) : exec (op.instr a) s = .next (s.delay p State.stepDone) := by
  rw [exec_inFlight hs, State.runPhase, hst]
  rfl

/-- What an abort inside a bracket leaves (60_exceptions R205). -/
theorem abortedFrom_abort {f : Failure} (hf : f.inBracket = true) (s : State) :
    AbortedFrom f.result (f.errcode s.params) s (s.abort f) := by
  refine ⟨?_, fun hb => by simp [leaveOperation_notBlit hb]⟩
  rw [State_abort_wrow, State_abort_raced]
  exact abort_inBracket hf s

/-- What completion leaves (42_display R152). -/
theorem completedFrom_complete (s : State) : CompletedFrom s s.complete := by
  refine ⟨?_, fun hb => by simp [leaveOperation_notBlit hb]⟩
  rw [State_complete_wrow, State_complete_raced, State_complete_draws]
  exact complete_eq s

/-- Settles O30: the delay, and the next step of the list. -/
theorem waitStepOnlyDelays : Obligations.WaitStepOnlyDelays := by
  intro s op a i p st' hs hst hn
  rw [exec_wait hs hst, State.delay, stepDone_next (s := s.log (.delay p)) hs hn]
  rfl

/-- Settles O27: by the driver's answer. -/
theorem enterPhaseEntersOrAborts : Obligations.EnterPhaseEntersOrAborts := by
  intro s op a i st m ms hs hst hm
  rw [exec_enter hs hst hm]
  constructor
  · intro h
    rw [modeEnter_ok h]
    exact congrArg _ (toPhase_eq .body hs)
  · intro c h
    exact ⟨_, congrArg _ (modeEnter_err h m _), abortedFrom_abort rfl _⟩

/-- Settles O29: by the driver's answer, and by whether a step follows in the list. -/
theorem exitPhaseReturnsToIdleOrAborts : Obligations.ExitPhaseReturnsToIdleOrAborts := by
  intro s op a i st m ms hs hst hm
  rw [exec_exit hs hst hm]
  constructor
  · rintro u h rfl
    rw [modeEnter_ok h]
    constructor
    · intro st' hn
      exact congrArg _ (stepDone_next hs hn)
    · intro hn
      exact ⟨_, congrArg _ (stepDone_last hs hn), completedFrom_complete _⟩
  · intro c h
    exact ⟨_, congrArg _ (modeEnter_err h .idle _), abortedFrom_abort rfl _⟩

/-- The steps whose BODY writes are TX and ROW, each its own buffer (40_mode R112, 42_display R171). -/
theorem writingStep_cases {op : Op} {a : Bool} {i : Nat} {s : State} {bs : List Byte}
    (h : (∃ m cmds, (prog op a)[i]? = some (.tx m cmds) ∧ bs = commandBytes s.params.wireOpc cmds) ∨
      ∃ k, (prog op a)[i]? = some (.row k) ∧ bs = s.wrow) :
    ∃ st m, (prog op a)[i]? = some st ∧ st.mode? = some m ∧ (∀ m p, st ≠ .hold m p) ∧ bs = st.buffer s := by
  obtain ⟨m, cmds, hst, hbs⟩ | ⟨k, hst, hbs⟩ := h
  · exact ⟨.tx m cmds, m, hst, rfl, by simp, hbs⟩
  · exact ⟨.row k, .data, hst, rfl, by simp, hbs⟩

/-- Settles O28: a step that writes by the write check's verdict on the transport's answer, and a HOLD by its delay. -/
theorem bodyPhaseWritesOnceOrAborts : Obligations.BodyPhaseWritesOnceOrAborts := by
  intro s op a i hs
  constructor
  · intro bs r ts u hwrites hq hu
    obtain ⟨st, m, hst, hm, hk, rfl⟩ := writingStep_cases hwrites
    rw [exec_write hs hst hm hk, hu]
    refine ⟨fun n hr hn => ?_, fun n hr hn => ?_, fun c hr => ?_⟩ <;> subst hr
    · rw [writeChecked_ok hq (if_neg (Nat.not_lt.mpr hn))]
      exact congrArg _ (toPhase_eq .exit hs)
    · exact ⟨_, congrArg _ (writeChecked_fails hq (if_pos hn) _), abortedFrom_abort rfl _⟩
    · exact ⟨_, congrArg _ (writeChecked_fails hq rfl _), abortedFrom_abort rfl _⟩
  · intro m p hst
    rw [exec_hold hs hst]
    exact congrArg _ (toPhase_eq .exit hs)

/-! LINK_MODE. -/

/-- VALID is bit 2, which `clearValid` clears (10_state R26). -/
theorem clearValid_valid (l : BitVec 3) : (clearValid l).getLsbD 2 = false := by
  revert l
  decide

/-- The write check fails inside a bracket only (60_exceptions R200). -/
theorem writeCheck_inBracket {len : Nat} {r : TxAnswer} {f : Failure} (h : writeCheck len r = some f) :
    f.inBracket = true := by
  obtain ⟨_, _, _, e⟩ | ⟨_, _, _, e⟩ | ⟨_, _, e⟩ := writeCheck_cases len r <;> cases h.symm.trans e <;> rfl

/-- No step starts inside its bracket (42_display R151). -/
theorem insideMode_firstPhase (op : Op) (a : Bool) (i : Nat) (st : SeqStep) :
    (Position.run op a i st.firstPhase).insideMode = none := by
  cases st <;> rfl

/-- At a BODY the bracket is its step's. -/
theorem insideMode_body {op : Op} {a : Bool} {i : Nat} {st : SeqStep} (h : (prog op a)[i]? = some st) :
    (Position.run op a i .body).insideMode = st.mode? := by
  simp [Position.insideMode, h]

/-- While RESULT is NONE, LINK_MODE has the physical mode and the bracket's to tell. -/
theorem linkModeTrue_of_resultNone {s : State} (hr : s.result = resultNone)
    (hv : s.linkValid = true → s.linkMode = linkModeOf s.link)
    (hin : ∀ m, s.seq.insideMode = some m → s.linkMode = linkModeOf m) : LinkModeTrue s := by
  refine ⟨hv, fun h => ?_, fun h => ?_, hin⟩ <;> rw [hr] at h <;> exact absurd h (by decide)

/-- With VALID 0, outside any bracket and after no success, LINK_MODE claims nothing. -/
theorem linkModeTrue_of_invalid {s : State} (hv : s.linkValid = false) (hr : s.result ≠ resultOk)
    (hin : s.seq.insideMode = none) : LinkModeTrue s :=
  ⟨fun h => by simp [hv] at h, fun h => absurd h hr, fun _ => hv, fun m h => by simp [hin] at h⟩

theorem linkModeTrue_abort {f : Failure} (hf : f.inBracket = true) (s : State) : LinkModeTrue (s.abort f) := by
  refine linkModeTrue_of_invalid ?_ ?_ ?_
  · rw [State.linkValid, State_abort_linkMode, if_pos hf, clearValid_valid]
  · rw [result_of_status (State_abort_status f s)]
    cases f <;> simp [Failure.result, resultOk]
  · rw [State_abort_seq]
    rfl

/-- A reserved word touches neither LINK_MODE nor the physical mode (30_encoding R74). -/
theorem LinkModeTrue.abort_illegalOp {s : State} (h : LinkModeTrue s) : LinkModeTrue (s.abort .illegalOp) := by
  have hres : (s.abort .illegalOp).result = 0x5#4 := result_of_status (State_abort_status _ s)
  refine ⟨?_, by simp [hres, resultOk], by simp [hres], by simp [Position.insideMode]⟩
  rw [Machine.abort_illegalOp]
  exact h.1

/-- After a success the link is in Idle and LINK_MODE says so. -/
theorem linkModeTrue_complete {s : State} (hl : s.linkMode = linkModeOf .idle) (hi : s.link = .idle) :
    LinkModeTrue s.complete := by
  have hres : s.complete.result = resultOk := result_of_status (State_complete_status s)
  refine ⟨fun _ => by simp [hl, hi], fun _ => ?_, by simp [hres, resultOk], by simp [Position.insideMode]⟩
  rw [State_complete_linkMode, hl]
  rfl

/-- Block reset clears VALID and RESULT (70_reset R230). -/
theorem linkModeTrue_blockReset (bs : List Byte) (s : State) : LinkModeTrue (s.blockReset bs) := by
  refine linkModeTrue_of_invalid ?_ ?_ rfl
  · rw [State.linkValid, State_blockReset_linkMode]
    rfl
  · rw [result_of_status (State_blockReset_status bs s)]
    decide

/-- While an operation is in flight RESULT is NONE (10_state R24). -/
theorem StatusFollowsSeq.result_inFlight {s : State} (h : StatusFollowsSeq s) (hs : s.seq ≠ .ready) :
    s.result = resultNone := by
  obtain ⟨hbusy, -, hnone, -⟩ := h
  exact hnone (hbusy.mpr hs)

theorem PhaseEffect.linkModeTrue {op : Op} {a : Bool} {i : Nat} {ph : Phase} {st : SeqStep} {s t : State}
    (he : PhaseEffect op a i ph st s t) (hs : s.seq = .run op a i ph) (hst : (prog op a)[i]? = some st)
    (hf : StatusFollowsSeq s) (h : LinkModeTrue s) : LinkModeTrue t := by
  have hr : s.result = resultNone := hf.result_inFlight (by simp [hs])
  have ⟨hv, _, _, hin⟩ := h
  cases he with
  | waits ht => exact ht ▸ h
  | enters m _ _ hm _ ht =>
    subst ht
    refine linkModeTrue_of_resultNone hr (fun _ => rfl) fun m' hm' => ?_
    rw [insideMode_body hst, hm] at hm'
    cases hm'
    rfl
  | modeFails _ _ _ _ _ ht => exact ht ▸ linkModeTrue_abort rfl _
  | writeFails _ _ _ _ _ _ _ _ hw ht => exact ht ▸ linkModeTrue_abort (writeCheck_inBracket hw) _
  | writes _ _ _ hp _ _ _ _ ht | holds _ _ hp _ ht =>
    subst ht hp
    rw [hs] at hin
    exact linkModeTrue_of_resultNone hr hv hin
  | exits _ _ st' _ _ _ _ ht =>
    subst ht
    exact linkModeTrue_of_resultNone hr (fun _ => rfl) (by simp [insideMode_firstPhase])
  | completes _ _ _ _ _ _ ht => exact ht ▸ linkModeTrue_complete rfl rfl
  | delays _ st' _ _ _ ht =>
    subst ht
    exact linkModeTrue_of_resultNone hr hv (by simp [insideMode_firstPhase])
  | packs _ _ _ ht =>
    subst ht
    exact linkModeTrue_of_resultNone hr hv (by simp [Position.insideMode])

theorem LinkModeTrue.accept {s : State} (h : LinkModeTrue s) (op : Op) (a : Bool) : LinkModeTrue (s.accept op a) := by
  refine linkModeTrue_of_resultNone (result_of_status (State_accept_status op a s)) h.1 ?_
  rw [State_accept_seq, prog_first]
  simp [Position.insideMode]

/-- A step keeps LINK_MODE true, where STATUS follows seq. -/
theorem step_status_linkMode : ∀ s t : State, StatusFollowsSeq s ∧ LinkModeTrue s → step s = .next t →
    StatusFollowsSeq t ∧ LinkModeTrue t := by
  apply step_keeps (fun s => StatusFollowsSeq s ∧ LinkModeTrue s)
  case accepts => exact fun s op a _ ⟨_, h⟩ _ => ⟨statusFollowsSeq_accept op a s, h.accept op a⟩
  case reserved => exact fun s _ ⟨_, h⟩ => ⟨statusFollowsSeq_abort .illegalOp s, h.abort_illegalOp⟩
  case phases =>
    intro s t op a i ph st hs hst he ⟨hf, h⟩
    exact ⟨(he.outcome hs).statusFollowsSeq (by simp [hs]) hf, he.linkModeTrue hs hst hf h⟩
  case resets => exact fun s _ => ⟨statusFollowsSeq_blockReset _ s, linkModeTrue_blockReset _ s⟩
  case frames => exact fun _ _ _ h => h
  case moves | offers | ports => exact fun _ _ h => h

/-- Settles O51: with STATUS's invariant, move by move. -/
theorem linkModeAlwaysTrue : Obligations.LinkModeAlwaysTrue :=
  fun s t hf hl h => (step_status_linkMode s t ⟨hf, hl⟩ h).2

end Sys2Proof.Machine
end

section
namespace Sys2Proof.Machine

/-! Events: which phase each belongs to, and what an EXIT finds in the trace. -/

/-- An event belongs to the phase at RUN(op, a, i, ph) (40_mode R111 to R114, 42_display R150). -/
def Event.atItsPhase (op : Op) (a : Bool) (i : Nat) (ph : Phase) : Event → Prop
  | .modeEnter .idle _ => ph = .exit ∧ ∃ m, (Position.run op a i ph).exitMode = some m
  | .modeEnter .reset _ => op = .init ∧ i = 0 ∧ ph = .enter
  | .modeEnter .data _ => ph = .enter ∧ ∃ r, (prog op a)[i]? = some (.row r)
  | .modeEnter .command _ => ph = .enter ∧ ∃ cmds, (prog op a)[i]? = some (.tx .command cmds)
  | .txWrite _ _ => ph = .body
  | .delay .tResetHold => op = .init ∧ i = 0 ∧ ph = .body
  | .delay .tResetSettle => op = .init ∧ i = 1 ∧ ph = .delay

/-- A step that has an EXIT has a bracket to leave (40_mode R110). -/
theorem exitMode_of_phaseOf {op : Op} {a : Bool} {i : Nat} {st : SeqStep} {s t : State}
    (hst : (prog op a)[i]? = some st) (h : s.phaseOf st .exit = .next t) :
    ∃ m, (Position.run op a i .exit).exitMode = some m := by
  cases phaseOf_cases h with
  | exit m hm => exact ⟨m, by simp [Position.exitMode, hst, hm]⟩
  | enter _ _ hp | write _ _ hp | hold _ _ _ hp | wait _ _ hp | pack _ _ hp => cases hp

/-- The ModeEnter of a bracket's mode belongs to its ENTER. -/
theorem modeEnter_atItsPhase {op : Op} {a : Bool} {i : Nat} {st : SeqStep} {m : Mode}
    (hst : (prog op a)[i]? = some st) (hm : st.mode? = some m) (r : ModeAnswer) :
    (Event.modeEnter m r).atItsPhase op a i .enter := by
  obtain ⟨rfl, rfl, ho, hi⟩ | ⟨rfl, cmds, -, rfl⟩ | ⟨rfl, k, -, rfl, -⟩ := mode?_cases hst hm
  · exact ⟨ho, hi, rfl⟩
  · exact ⟨rfl, cmds, hst⟩
  · exact ⟨rfl, k, hst⟩

/-- A phase logs no event, or one that belongs to it. -/
theorem trace_of_phaseOf {op : Op} {a : Bool} {i : Nat} {ph : Phase} {st : SeqStep} {s t : State}
    (hs : s.seq = .run op a i ph) (hst : (prog op a)[i]? = some st) (h : s.phaseOf st ph = .next t) :
    t.trace = s.trace ∨ ∃ e : Event, t.trace = s.trace ++ [e] ∧ e.atItsPhase op a i ph := by
  cases phase_effect hs hst h with
  | waits ht | packs _ _ _ ht => exact .inl (by rw [ht])
  | enters m _ hp hm _ ht =>
    subst hp
    exact .inr ⟨.modeEnter m .ok, by rw [ht], modeEnter_atItsPhase hst hm .ok⟩
  | modeFails m c _ hp _ ht =>
    refine .inr ⟨.modeEnter m (.err c), by rw [ht, State_abort_trace], ?_⟩
    obtain ⟨rfl, hm⟩ | ⟨rfl, rfl⟩ := hp
    · exact modeEnter_atItsPhase hst hm _
    · exact ⟨rfl, exitMode_of_phaseOf hst h⟩
  | writes _ r _ hp _ _ _ _ ht => exact .inr ⟨.txWrite (st.buffer s) r, by rw [ht], hp⟩
  | writeFails _ r _ _ hp _ _ _ _ ht => exact .inr ⟨.txWrite (st.buffer s) r, by rw [ht, State_abort_trace], hp⟩
  | holds m p hp hhold ht =>
    subst hhold
    cases prog_step hst with
    | hold ho hi => exact .inr ⟨.delay .tResetHold, by rw [ht], ho, hi, hp⟩
  | exits _ _ _ hp _ _ _ ht =>
    subst hp
    exact .inr ⟨.modeEnter .idle .ok, by rw [ht], rfl, exitMode_of_phaseOf hst h⟩
  | completes _ _ hp _ _ _ ht =>
    subst hp
    exact .inr ⟨.modeEnter .idle .ok, by rw [ht, State_complete_trace], rfl, exitMode_of_phaseOf hst h⟩
  | delays p _ hp hwait _ ht =>
    subst hwait
    cases prog_step hst with
    | wait ho hi => exact .inr ⟨.delay .tResetSettle, by rw [ht], ho, hi, hp⟩

/-- The block's move logs no event, or one that belongs to the phase it runs. -/
theorem BlockMove.trace_cases {s t : State} (h : BlockMove s t) :
    t.trace = s.trace ∨ ∃ e op a i ph, s.seq = .run op a i ph ∧ t.trace = s.trace ++ [e] ∧
      Event.atItsPhase op a i ph e := by
  cases h with
  | waits _ _ ht => exact .inl (by rw [ht])
  | accepts _ _ _ _ _ _ _ _ ht => exact .inl (by rw [ht, State_accept_trace])
  | reserved _ _ _ _ _ ht => exact .inl (by rw [ht, State_abort_trace])
  | phase op a i ph st hs hst ht =>
    exact (trace_of_phaseOf hs hst ht).imp_right fun ⟨e, htr, he⟩ => ⟨e, op, a, i, ph, hs, htr, he⟩

/-- A step logs no event, or one that belongs to the phase it runs: the host's moves log none (20_memory R59). -/
theorem step_trace_cases {s t : State} (h : step s = .next t) :
    t.trace = s.trace ∨ ∃ e op a i ph, s.seq = .run op a i ph ∧ t.trace = s.trace ++ [e] ∧
      Event.atItsPhase op a i ph e := by
  cases step_cases h with
  | block _ hb => exact hb.trace_cases
  | letRun _ _ hb => exact hb.trace_cases
  | offer _ _ _ ht | writeStatus _ _ _ ht => exact .inl (by rw [ht])
  | blockReset _ _ ht => exact .inl (by rw [ht, State_blockReset_trace])
  | packIn _ _ _ ht => exact .inl (by rw [ht, State_drivePackPort_trace])
  | frameWrite _ _ _ _ ht => exact .inl (by rw [ht, State_hostFrameWrite_trace])

/-- A step that logs ModeEnter(Idle) is at the EXIT of a bracket. -/
theorem exitMode_of_step {s t : State} {r : ModeAnswer} (h : step s = .next t)
    (hr : t.trace = s.trace ++ [.modeEnter .idle r]) : ∃ m, s.seq.exitMode = some m := by
  obtain hsame | ⟨e, op, a, i, ph, hs, htr, he⟩ := step_trace_cases h
  · simp [hr] at hsame
  · obtain rfl : .modeEnter .idle r = e := by simpa [hr] using htr
    obtain ⟨-, hm⟩ := he
    rwa [hs]

/-- Outside BODY and EXIT nothing is asked of the trace. -/
theorem exitsFollowBodies_outside {s : State} (hb : s.seq.bodyMode = none) (hx : s.seq.exitMode = none) :
    ExitsFollowBodies s :=
  ⟨fun m h => by simp [hb] at h, fun m h => by simp [hx] at h⟩

/-- READY is outside every bracket. -/
theorem exitsFollowBodies_ready {s : State} (hs : s.seq = .ready) : ExitsFollowBodies s :=
  exitsFollowBodies_outside (by rw [hs]; rfl) (by rw [hs]; rfl)

/-- The first phase of a step is outside its bracket (42_display R151). -/
theorem exitsFollowBodies_firstPhase {s : State} {op : Op} {a : Bool} {i : Nat} {st : SeqStep}
    (hs : s.seq = .run op a i st.firstPhase) : ExitsFollowBodies s := by
  apply exitsFollowBodies_outside <;> rw [hs] <;> cases st <;> rfl

/-- A body that succeeds leaves its event behind the ModeEnter it found. -/
theorem ExitsFollowBodies.toExit {s t : State} {op : Op} {a : Bool} {i : Nat} {e : Event} (h : ExitsFollowBodies s)
    (hs : s.seq = .run op a i .body) (ht : t.seq = .run op a i .exit) (htr : t.trace = s.trace ++ [e])
    (he : e.bodySucceeds = true) : ExitsFollowBodies t := by
  obtain ⟨hbody, -⟩ := h
  rw [hs] at hbody
  rw [ExitsFollowBodies, ht]
  refine ⟨fun m hm => (nomatch hm), fun m hm => ?_⟩
  obtain ⟨pre, hpre⟩ := hbody m hm
  exact ⟨pre, e, by simp [htr, hpre], he⟩

theorem PhaseEffect.exitsFollowBodies {op : Op} {a : Bool} {i : Nat} {ph : Phase} {st : SeqStep} {s t : State}
    (he : PhaseEffect op a i ph st s t) (hs : s.seq = .run op a i ph) (hst : (prog op a)[i]? = some st)
    (h : ExitsFollowBodies s) : ExitsFollowBodies t := by
  cases he with
  | waits ht => exact ht ▸ h
  | enters m _ _ hm _ ht =>
    subst ht
    refine ⟨fun m' hm' => ?_, fun m' hm' => (nomatch hm')⟩
    obtain rfl : m = m' := by simpa [Position.bodyMode, hst, hm] using hm'
    exact ⟨s.trace, rfl⟩
  | modeFails _ _ _ _ _ ht => exact ht ▸ exitsFollowBodies_ready (State_abort_seq _ _)
  | writeFails _ _ _ _ _ _ _ _ _ ht => exact ht ▸ exitsFollowBodies_ready (State_abort_seq _ _)
  | completes _ _ _ _ _ _ ht => exact ht ▸ exitsFollowBodies_ready (State_complete_seq _)
  | writes _ _ _ hp _ _ _ hw ht =>
    subst ht hp
    exact h.toExit hs rfl rfl (by simp [Event.bodySucceeds, hw])
  | holds _ _ hp _ ht =>
    subst ht hp
    exact h.toExit hs rfl rfl rfl
  | exits _ _ st' _ _ _ _ ht => subst ht; exact exitsFollowBodies_firstPhase (st := st') rfl
  | delays _ st' _ _ _ ht => subst ht; exact exitsFollowBodies_firstPhase (st := st') rfl
  | packs _ _ _ ht => subst ht; exact exitsFollowBodies_outside rfl rfl

/-- A step keeps what an EXIT finds in the trace (40_mode R117). -/
theorem step_exitsFollowBodies : ∀ s t : State, ExitsFollowBodies s → step s = .next t → ExitsFollowBodies t := by
  apply step_keeps ExitsFollowBodies
  case accepts => exact fun _ op _ _ _ _ => exitsFollowBodies_outside (by cases op <;> rfl) (by cases op <;> rfl)
  case reserved => exact fun _ _ _ => exitsFollowBodies_ready (State_abort_seq _ _)
  case phases => exact fun _ _ _ _ _ _ _ hs hst he h => he.exitsFollowBodies hs hst h
  case resets => exact fun _ _ => exitsFollowBodies_ready rfl
  case frames => exact fun _ _ _ h => h
  case moves | offers | ports => exact fun _ _ h => h

/-- Settles O58: a step's event belongs to its phase, and the invariant says what an EXIT finds in the trace. -/
theorem eventsOnlyAtTheirPhases : Obligations.EventsOnlyAtTheirPhases := by
  constructor
  · intro s t h
    refine (step_trace_cases h).imp_right fun ⟨e, op, a, i, ph, hs, htr, he⟩ => ⟨e, op, a, i, ph, hs, htr, ?_⟩
    cases e with
    | modeEnter m r =>
      cases m with
      | idle => exact he.1
      | reset | data | command => exact he
    | txWrite => exact he
    | delay p => cases p <;> exact he
  · intro s t hx h
    refine ⟨step_exitsFollowBodies s t hx h, fun r hr => ?_⟩
    obtain ⟨-, hexit⟩ := hx
    obtain ⟨m, hm⟩ := exitMode_of_step h hr
    obtain ⟨pre, e, htr, he⟩ := hexit m hm
    exact ⟨m, pre, e, hm, htr, he⟩

end Sys2Proof.Machine
end

section
namespace Sys2Proof.Machine

/-! The pixel packer: where each input bit lands in a packed byte, in PACK_OUT and in a wire row. -/

/-- Every bit of a nibble is the pixel it shows (41_pixel_packer R134). -/
theorem nib_getLsbD (x : Bool) {j : Nat} (hj : j < 4) : (nib x).getLsbD j = x := by
  cases x with
  | false => exact BitVec.getLsbD_zero
  | true => exact (BitVec.getLsbD_allOnes (v := 4)).trans (decide_eq_true hj)

/-- The high nibble is the earlier pixel (41_pixel_packer R133). -/
theorem packedByte_high (b : Byte) (i : Nat) : (packedByte b i).extractLsb' 4 4 = nib (b.getLsbD (7 - 2 * i)) :=
  BitVec.extractLsb'_append_eq_left

/-- The low nibble is the later pixel (41_pixel_packer R133). -/
theorem packedByte_low (b : Byte) (i : Nat) : (packedByte b i).extractLsb' 0 4 = nib (b.getLsbD (6 - 2 * i)) :=
  BitVec.extractLsb'_append_eq_right

/-- Packed byte i shows bit 6 - 2i in its low lane and bit 7 - 2i in its high lane (41_pixel_packer R135). -/
theorem packedByte_getLsbD (b : Byte) {i l j : Nat} (hi : i < 4) (hl : l < 2) (hj : j < 4) :
    (packedByte b i).getLsbD (4 * l + j) = b.getLsbD (6 - 2 * i + l) := by
  rw [packedByte, BitVec.getLsbD_append]
  obtain rfl | rfl : l = 0 ∨ l = 1 := by omega
  · rw [if_pos (by omega), nib_getLsbD _ (by omega), Nat.add_zero]
  · rw [if_neg (by omega), nib_getLsbD _ (by omega), show 7 - 2 * i = 6 - 2 * i + 1 by omega]

theorem packPixelByte_getElem? (b : Byte) {i : Nat} (hi : i < 4) : (packPixelByte b)[i]? = some (packedByte b i) := by
  match i, hi with
  | 0, _ | 1, _ | 2, _ | 3, _ => rfl

theorem packPixelByte_length (b : Byte) : (packPixelByte b).length = 4 := rfl

theorem packRow_cons (b : Byte) (row : List Byte) : packRow (b :: row) = packPixelByte b ++ packRow row :=
  List.flatMap_cons

/-- `out[4c + i] = packPixelByte(row[c])[i]` (41_pixel_packer R131). -/
theorem packRow_getElem? (row : List Byte) (c : Nat) {i : Nat} (hi : i < 4) :
    (packRow row)[4 * c + i]? = row[c]?.map (packedByte · i) := by
  induction row generalizing c with
  | nil => rfl
  | cons b row ih =>
    rw [packRow_cons]
    cases c with
    | zero =>
      rw [List.getElem?_append_left (by rw [packPixelByte_length]; omega), Nat.mul_zero, Nat.zero_add,
        packPixelByte_getElem? b hi]
      rfl
    | succ c =>
      rw [List.getElem?_append_right (by rw [packPixelByte_length]; omega), packPixelByte_length,
        show 4 * (c + 1) + i - 4 = 4 * c + i by omega, ih, List.getElem?_cons_succ]

/-- The wire byte of pixel x is built from row byte x div 8 (41_pixel_packer R133, the check). -/
theorem packRow_getD_pixel (row : List Byte) {x : Nat} (hx : x / 8 < row.length) :
    (packRow row).getD (x / 2) 0x00#8 = packedByte (row.getD (x / 8) 0x00#8) (x % 8 / 2) := by
  rw [List.getD_eq_getElem?_getD, show x / 2 = 4 * (x / 8) + x % 8 / 2 by omega,
    packRow_getElem? row _ (by omega), List.getD_eq_getElem?_getD, List.getElem?_eq_getElem hx]
  rfl

/-- Settles O15: pixel x is packed from bit 7 - x mod 8 of its row byte, which shows in the nibble of x's parity. -/
theorem everyPixelLandsInItsNibble : Obligations.EveryPixelLandsInItsNibble := by
  intro row x hrow hx
  rw [packRow_getD_pixel row (by omega)]
  generalize row.getD (x / 8) 0x00#8 = b
  by_cases he : x % 2 = 0
  · rw [if_pos he, packedByte_high, show 7 - 2 * (x % 8 / 2) = 7 - x % 8 by omega]
    rfl
  · rw [if_neg he, packedByte_low, show 6 - 2 * (x % 8 / 2) = 7 - x % 8 by omega]
    rfl

/-- Settles O11: the rule's loop written out, and its closed values. -/
theorem packPixelByteByPairs : Obligations.PackPixelByteByPairs :=
  fun _ => ⟨rfl, rfl, rfl, rfl⟩

/-- Byte m of PACK_OUT from below is packed byte 3 - m (10_state R31). -/
theorem packWord_getLsbD (b : Byte) {m t : Nat} (hm : m < 4) (ht : t < 8) :
    (packWord b).getLsbD (8 * m + t) = (packedByte b (3 - m)).getLsbD t := by
  simp only [packWord, BitVec.getLsbD_append]
  match m, hm with
  | 0, _ => rw [if_pos (by omega), Nat.mul_zero, Nat.zero_add]
  | 1, _ => rw [if_neg (by omega), if_pos (by omega)]; congr 1; omega
  | 2, _ => rw [if_neg (by omega), if_neg (by omega), if_pos (by omega)]; congr 1; omega
  | 3, _ => rw [if_neg (by omega), if_neg (by omega), if_neg (by omega)]; congr 1; omega

/-- Lane k of PACK_OUT is lane k mod 2 of its byte k div 2, which copies input bit k (41_pixel_packer R135). -/
theorem packWord_lane (b : Byte) {k j : Nat} (hk : k < 8) (hj : j < 4) :
    (packWord b).getLsbD (4 * k + j) = b.getLsbD k :=
  calc (packWord b).getLsbD (4 * k + j)
    _ = (packWord b).getLsbD (8 * (k / 2) + (4 * (k % 2) + j)) := by congr 1; omega
    _ = (packedByte b (3 - k / 2)).getLsbD (4 * (k % 2) + j) := packWord_getLsbD b (by omega) (by omega)
    _ = b.getLsbD (6 - 2 * (3 - k / 2) + k % 2) := packedByte_getLsbD b (by omega) (by omega) hj
    _ = b.getLsbD k := by congr 1; omega

/-- Settles O12: the lanes, and `packWord` is the four bytes of `packPixelByte`, the first on top. -/
theorem packOutCopiesEachBitFourTimes : Obligations.PackOutCopiesEachBitFourTimes := by
  refine ⟨fun b k j => packWord_lane b, fun b o0 o1 o2 o3 h => ?_⟩
  simp only [packPixelByte, List.cons.injEq] at h
  obtain ⟨rfl, rfl, rfl, rfl, -⟩ := h
  rfl

/-- The two bits of a byte from bit n up, as its pair (41_pixel_packer R136). -/
theorem extractLsb'_two (b : Byte) (n : Nat) :
    b.extractLsb' n 2 = BitVec.ofBool (b.getLsbD (n + 1)) ++ BitVec.ofBool (b.getLsbD n) := by
  apply BitVec.eq_of_getLsbD_eq
  intro j hj
  rw [BitVec.getLsbD_extractLsb', BitVec.getLsbD_append]
  match j, hj with
  | 0, _ | 1, _ => simp

/-- The 4-entry table on the pairs 00, 01, 10 and 11 (41_pixel_packer R136). -/
theorem pairTable_getElem? (h l : Bool) :
    [0x00#8, 0x0F#8, 0xF0#8, 0xFF#8][(BitVec.ofBool h ++ BitVec.ofBool l).toNat]? = some (nib h ++ nib l) := by
  cases h <;> cases l <;> rfl

/-- The shift-expand form of a pair (41_pixel_packer R136). -/
theorem nib_append_nib (h l : Bool) :
    nib h ++ nib l = (if h then 0xF0#8 else 0x00#8) ||| (if l then 0x0F#8 else 0x00#8) := by
  cases h <;> cases l <;> rfl

/-- A packed byte depends on the nibble that holds its pair: bytes 0 and 1 on the high nibble (m = 0), bytes 2 and 3 on
the low one (m = 2), each as byte 0 or 1 of that nibble alone (41_pixel_packer R136). -/
theorem packedByte_nibble (b : Byte) {m i : Nat} (hm : m ≤ 2) (hi : i < 2) :
    packedByte (b.extractLsb' (4 - 2 * m) 4 ++ 0#4) i = packedByte b (m + i) := by
  have bit {j : Nat} (hj : j < 4) :
      (b.extractLsb' (4 - 2 * m) 4 ++ 0#4).getLsbD (4 + j) = b.getLsbD (4 - 2 * m + j) := by
    rw [BitVec.getLsbD_append, if_neg (by omega), Nat.add_sub_cancel_left, BitVec.getLsbD_extractLsb',
      decide_eq_true hj, Bool.true_and]
  rw [packedByte, packedByte, show 7 - 2 * i = 4 + (3 - 2 * i) by omega, show 6 - 2 * i = 4 + (2 - 2 * i) by omega,
    bit (by omega), bit (by omega), show 4 - 2 * m + (3 - 2 * i) = 7 - 2 * (m + i) by omega,
    show 4 - 2 * m + (2 - 2 * i) = 6 - 2 * (m + i) by omega]

/-- The first two packed bytes of each nibble alone are the two entries of the 16-entry table (41_pixel_packer R136). -/
theorem packPixelByte_nibble (b : Byte) {m : Nat} (hm : m ≤ 2) :
    (packPixelByte (b.extractLsb' (4 - 2 * m) 4 ++ 0#4)).take 2 = [packedByte b m, packedByte b (m + 1)] := by
  have first := packedByte_nibble b hm (i := 0) (by omega)
  have second := packedByte_nibble b hm (i := 1) (by omega)
  rw [packPixelByte, first, second]
  rfl

/-- Settles O13: by the nibble that holds a pair, by the pair's table and by its shift-expand form. -/
theorem lutAndShiftExpandAgree : Obligations.LutAndShiftExpandAgree := by
  refine ⟨fun b => ?_, fun b i hi => ?_⟩
  · have high := packPixelByte_nibble b (m := 0) (by omega)
    have low := packPixelByte_nibble b (m := 2) (by omega)
    exact (congr (congrArg (· ++ ·) high) low).symm
  · rw [packPixelByte_getElem? b hi, ← nib_append_nib, extractLsb'_two, pairTable_getElem?,
      show 6 - 2 * i + 1 = 7 - 2 * i by omega]
    exact ⟨rfl, rfl⟩

/-- Settles O14, by the length law. -/
theorem packRowIsFourTimesAsLong : Obligations.PackRowIsFourTimesAsLong := packRow_length

end Sys2Proof.Machine
end

section
namespace Sys2Proof.Machine

/-! What a machine emits depends on its inputs only (42_display R153): two machines abreast, part by part. -/

/-- `s` and `t` have the same inputs, and since the traces `p` and `q` they have emitted the same events. -/
structure Abreast (p q : List Event) (s t : State) : Prop where
  params : s.params = t.params
  seq : s.seq = t.seq
  frame : s.frame = t.frame
  raced : s.raced = t.raced
  offers : s.offers = t.offers
  host : s.host = t.host
  modeAnswers : s.modeAnswers = t.modeAnswers
  txAnswers : s.txAnswers = t.txAnswers
  draws : s.draws = t.draws
  wrow : s.seq.rowPacked = true → s.wrow = t.wrow
  events : ∃ es, s.trace = p ++ es ∧ t.trace = q ++ es

/-- Machines with the same inputs start abreast. -/
theorem SameInputs.abreast {s t : State} (h : SameInputs s t) : Abreast s.trace t.trace s t := by
  obtain ⟨hparams, hseq, hframe, hraced, hoffers, hhost, hmode, htx, hdraws, hwrow⟩ := h
  exact ⟨hparams, hseq, hframe, hraced, hoffers, hhost, hmode, htx, hdraws, hwrow, [], by simp⟩

/-- A row is packed after a phase other than PACK only where it was before. -/
theorem rowPacked_of_phase {op : Op} {a : Bool} {i : Nat} {ph ph' : Phase} (hp : ph ≠ .pack)
    (h : (Position.run op a i ph').rowPacked = true) : (Position.run op a i ph).rowPacked = true :=
  rowPacked_iff.mpr ⟨(rowPacked_iff.mp h).1, hp⟩

/-- A ROW's PACK puts the packed row in WROW, draws a free value for each of its 16 bytes, and goes on to ENTER. -/
theorem packPhase_eq (r : Nat) {s : State} {op : Op} {a : Bool} {i : Nat} {ph : Phase} (hs : s.seq = .run op a i ph) :
    s.packPhase r =
      { s with wrow := packRow (s.frameRow r), draws := s.draws + 16, seq := .run op a i .enter } :=
  toPhase_eq .enter hs

/-- A ROW's PACK, run by the instruction in flight. -/
theorem exec_rowPack {s : State} {op : Op} {a : Bool} {i r : Nat} (hs : s.seq = .run op a i .pack)
    (hst : (prog op a)[i]? = some (.row r)) : exec (op.instr a) s = .next (s.packPhase r) := by
  rw [exec_inFlight hs, State.runPhase, hst]
  rfl

/-- What a step writes depends on the parameters, and a ROW's on WROW too. -/
theorem buffer_congr {st : SeqStep} {s t : State} (hw : ∀ r, st = .row r → s.wrow = t.wrow)
    (hp : s.params = t.params) : st.buffer s = st.buffer t := by
  cases st with
  | tx m cmds => exact congrArg (fun p : Params => commandBytes p.wireOpc cmds) hp
  | row r => exact hw r rfl
  | hold | wait => rfl

/-- A run starts with a step. -/
theorem run_of_step {s t : State} (h : step s = .next t) (n : Nat) :
    Sys2Proof.core.run (n + 1) s = Sys2Proof.core.run n t := by
  simp only [Host.Core.run, Sys2Proof.core, h]

/-- A run that answers has a first step that answers. -/
theorem run_succ {n : Nat} {s s' : State} (h : Sys2Proof.core.run (n + 1) s = .next s') :
    ∃ t, step s = .next t ∧ Sys2Proof.core.run n t = .next s' := by
  cases hstep : step s with
  | next t => exact ⟨t, rfl, run_of_step hstep n ▸ h⟩
  | fault r => simp [Host.Core.run, Sys2Proof.core, hstep] at h
  | refused r => simp [Host.Core.run, Sys2Proof.core, hstep] at h

namespace Abreast

variable {p q : List Event} {s t : State}

theorem sameInputs (h : Abreast p q s t) : SameInputs s t :=
  ⟨h.params, h.seq, h.frame, h.raced, h.offers, h.host, h.modeAnswers, h.txAnswers, h.draws, h.wrow⟩

theorem log (h : Abreast p q s t) (e : Event) : Abreast p q (s.log e) (t.log e) := by
  obtain ⟨es, hs, ht⟩ := h.events
  exact { h with events := ⟨es ++ [e], by simp [hs], by simp [ht]⟩ }

theorem leaveOperation (h : Abreast p q s t) : Abreast p q s.leaveOperation t.leaveOperation := by
  unfold State.leaveOperation
  rw [← h.seq]
  split
  · exact { h with seq := rfl, raced := rfl, draws := congrArg (· + 1) h.draws, wrow := nofun }
  · exact { h with seq := rfl, wrow := nofun }

theorem complete (h : Abreast p q s t) : Abreast p q s.complete t.complete := { h.leaveOperation with }

theorem loseLink (h : Abreast p q s t) : Abreast p q s.loseLink t.loseLink :=
  { h with draws := congrArg (· + 1) h.draws }

theorem abort (h : Abreast p q s t) (f : Failure) : Abreast p q (s.abort f) (t.abort f) := by
  unfold State.abort
  split
  · exact { h.leaveOperation.loseLink with }
  · exact { h.leaveOperation with }

theorem withHost (h : Abreast p q s t) (hs : List HostMove) :
    Abreast p q { s with host := hs } { t with host := hs } := { h with host := rfl }

theorem withOffers (h : Abreast p q s t) (ws : List Byte) :
    Abreast p q { s with offers := ws } { t with offers := ws } := { h with offers := rfl }

theorem blockReset (h : Abreast p q s t) (bs cs : List Byte) : Abreast p q (s.blockReset bs) (t.blockReset cs) :=
  { h with seq := rfl, raced := rfl, draws := congrArg (· + 3) h.draws, wrow := nofun }

theorem drivePackPort (h : Abreast p q s t) (b : Byte) : Abreast p q (s.drivePackPort b) (t.drivePackPort b) :=
  { h with }

theorem hostFrameWrite (h : Abreast p q s t) (a : BitVec 10) (b : Byte) :
    Abreast p q (s.hostFrameWrite a b) (t.hostFrameWrite a b) :=
  { h with
    frame := by simp only [State_hostFrameWrite_frame, h.frame]
    raced := by simp only [State_hostFrameWrite_raced, h.seq, h.frame, h.raced] }

theorem accept (h : Abreast p q s t) (op : Op) (a : Bool) : Abreast p q (s.accept op a) (t.accept op a) :=
  { h with seq := rfl, wrow := fun hp => by cases op <;> cases hp }

theorem toPhase (h : Abreast p q s t) {op : Op} {a : Bool} {i : Nat} {ph : Phase} (hs : s.seq = .run op a i ph)
    (hp : ph ≠ .pack) (ph' : Phase) : Abreast p q (s.toPhase ph') (t.toPhase ph') := by
  rw [toPhase_eq ph' hs, toPhase_eq ph' (h.seq ▸ hs)]
  exact { h with seq := rfl, wrow := fun hr => h.wrow (hs ▸ rowPacked_of_phase hp hr) }

theorem stepDone (h : Abreast p q s t) {op : Op} {a : Bool} {i : Nat} {ph : Phase} (hs : s.seq = .run op a i ph) :
    Abreast p q s.stepDone t.stepDone := by
  have ht : t.seq = .run op a i ph := h.seq ▸ hs
  cases hn : (prog op a)[i + 1]? with
  | none =>
    rw [stepDone_last hs hn, stepDone_last ht hn]
    exact h.complete
  | some st =>
    rw [stepDone_next hs hn, stepDone_next ht hn]
    exact { h with seq := rfl, wrow := fun hr => by simp [rowPacked_firstPhase hn] at hr }

/-- A ModeEnter gets the same answer in both, and goes on or aborts alike. -/
theorem modeEnter (h : Abreast p q s t) (m : Mode) {k : State → State}
    (hk : ∀ s' t', s'.seq = s.seq → Abreast p q s' t' → Abreast p q (k s') (k t')) :
    Abreast p q (s.modeEnter m k) (t.modeEnter m k) := by
  unfold State.modeEnter
  rw [← h.modeAnswers]
  split
  · exact h
  · exact hk _ _ rfl { h.log (.modeEnter m .ok) with modeAnswers := rfl }
  next c rest _ =>
    have hlog : Abreast p q { s.log (.modeEnter m (.err c)) with modeAnswers := rest }
        { t.log (.modeEnter m (.err c)) with modeAnswers := rest } :=
      { h.log (.modeEnter m (.err c)) with modeAnswers := rfl }
    exact hlog.abort (.mode c)

/-- A write of the same bytes gets the same answer in both, and goes on or aborts alike. -/
theorem writeChecked (h : Abreast p q s t) (bs : List Byte) {k : State → State}
    (hk : ∀ s' t', s'.seq = s.seq → Abreast p q s' t' → Abreast p q (k s') (k t')) :
    Abreast p q (s.writeChecked bs k) (t.writeChecked bs k) := by
  unfold State.writeChecked
  rw [← h.txAnswers]
  split
  · exact h
  next r rest _ =>
    have hlog : Abreast p q { (s.emit bs).log (.txWrite bs r) with txAnswers := rest }
        { (t.emit bs).log (.txWrite bs r) with txAnswers := rest } :=
      { h.log (.txWrite bs r) with txAnswers := rfl }
    dsimp only
    split
    · exact hlog.abort _
    · exact hk _ _ rfl hlog

/-- Both read the same row: the frame, the races and the counter of free values are the same. -/
theorem frameRow (h : Abreast p q s t) (r : Nat) : s.frameRow r = t.frameRow r := by
  simp only [State.frameRow, State.frameRead, State.oldBytes, h.frame, h.raced, h.draws]

theorem packPhase (h : Abreast p q s t) {op : Op} {a : Bool} {i : Nat} {ph : Phase} (hs : s.seq = .run op a i ph)
    (r : Nat) : Abreast p q (s.packPhase r) (t.packPhase r) := by
  rw [packPhase_eq r hs, packPhase_eq r (h.seq ▸ hs)]
  exact { h with
    seq := rfl
    draws := congrArg (· + 16) h.draws
    wrow := fun _ => congrArg packRow (h.frameRow r) }

/-- Past a PACK both send the same bytes: a command sequence, or the row both have packed. -/
theorem buffer (h : Abreast p q s t) {op : Op} {a : Bool} {i : Nat} {ph : Phase} {st : SeqStep}
    (hs : s.seq = .run op a i ph) (hst : (prog op a)[i]? = some st) (hp : ph ≠ .pack) :
    st.buffer s = st.buffer t :=
  buffer_congr (fun r e => h.wrow (hs ▸ rowPacked_iff.mpr ⟨⟨r, e ▸ hst⟩, hp⟩)) h.params

/-- A phase of the operation in flight goes the same way in both. -/
theorem phase (h : Abreast p q s t) {s' : State} {op : Op} {a : Bool} {i : Nat} {ph : Phase} {st : SeqStep}
    (hs : s.seq = .run op a i ph) (hst : (prog op a)[i]? = some st) (hphase : s.phaseOf st ph = .next s') :
    ∃ t', exec (op.instr a) t = .next t' ∧ Abreast p q s' t' := by
  have ht : t.seq = .run op a i ph := h.seq ▸ hs
  cases phaseOf_cases hphase with
  | enter m hm hp hs' =>
    subst hp hs'
    exact ⟨_, exec_enter ht hst hm, h.modeEnter m fun _ _ e h' => h'.toPhase (e.trans hs) (by decide) .body⟩
  | write m hm hp hk hs' =>
    subst hp hs'
    refine ⟨_, exec_write ht hst hm hk, ?_⟩
    rw [h.buffer hs hst (by decide)]
    exact h.writeChecked _ fun _ _ e h' => h'.toPhase (e.trans hs) (by decide) .exit
  | hold m d hhold hp hs' =>
    subst hhold hp hs'
    exact ⟨_, exec_hold ht hst, (h.log (.delay d)).toPhase hs (by decide) .exit⟩
  | exit m hm hp hs' =>
    subst hp hs'
    exact ⟨_, exec_exit ht hst hm, h.modeEnter .idle fun _ _ e h' => h'.stepDone (e.trans hs)⟩
  | wait d hwait hp hs' =>
    subst hwait hp hs'
    exact ⟨_, exec_wait ht hst, (h.log (.delay d)).stepDone hs⟩
  | pack r hrow hp hs' =>
    subst hrow hp hs'
    exact ⟨_, exec_rowPack ht hst, h.packPhase hs r⟩

/-- The block's move goes the same way in both. -/
theorem blockMove (h : Abreast p q s t) {s' v : State} (hm : BlockMove s s') (hb : BlockNext v t) :
    ∃ t', step v = .next t' ∧ Abreast p q s' t' := by
  cases hm with
  | waits hs ho hs' =>
    rw [hs']
    exact ⟨t, step_blockNext_idle hb (h.seq ▸ hs) (h.offers ▸ ho), h⟩
  | accepts w ws op a hs ho hd ha hs' =>
    have ht : t.seq = .ready := h.seq ▸ hs
    rw [step_blockNext_offer hb ht (h.offers ▸ ho), hd, hs', exec_ready (s := { t with offers := ws }) ht ha]
    exact ⟨_, rfl, (h.withOffers ws).accept op a⟩
  | reserved w ws hs ho hd hs' =>
    have ht : t.seq = .ready := h.seq ▸ hs
    rw [step_blockNext_offer hb ht (h.offers ▸ ho), hd, hs', exec_reserved_ready (s := { t with offers := ws }) ht]
    exact ⟨_, rfl, (h.withOffers ws).abort .illegalOp⟩
  | phase op a i ph st hs hst hphase =>
    rw [step_blockNext_inFlight hb (h.seq ▸ hs)]
    exact h.phase hs hst hphase

/-- A step goes the same way in both: the host has the same move, and so has the block. -/
theorem step (h : Abreast p q s t) {s' : State} (hstep : Machine.step s = .next s') :
    ∃ t', Machine.step t = .next t' ∧ Abreast p q s' t' := by
  cases step_cases hstep with
  | block hh hm => exact h.blockMove hm (.inl ⟨h.host ▸ hh, rfl⟩)
  | letRun hs hh hm => exact (h.withHost hs).blockMove hm (.inr ⟨hs, h.host ▸ hh, rfl⟩)
  | offer w hs hh hs' =>
    rw [h.host] at hh
    refine ⟨{ t with host := hs, offers := t.offers ++ [w] }, by simp only [Machine.step, State.turn, hh], ?_⟩
    rw [hs', h.offers]
    exact (h.withHost hs).withOffers (t.offers ++ [w])
  | blockReset hs hh hs' =>
    rw [h.host] at hh
    exact ⟨State.blockReset t.outstandingWrite { t with host := hs }, by simp only [Machine.step, State.turn, hh],
      hs' ▸ (h.withHost hs).blockReset _ _⟩
  | packIn b hs hh hs' =>
    rw [h.host] at hh
    exact ⟨State.drivePackPort b { t with host := hs }, by simp only [Machine.step, State.turn, hh, exec_pack],
      hs' ▸ (h.withHost hs).drivePackPort b⟩
  | frameWrite a b hs hh hs' =>
    rw [h.host] at hh
    exact ⟨State.hostFrameWrite a b { t with host := hs }, by simp only [Machine.step, State.turn, hh],
      hs' ▸ (h.withHost hs).hostFrameWrite a b⟩
  | writeStatus v hs hh hs' =>
    rw [h.host] at hh
    exact ⟨{ t with host := hs }, by simp only [Machine.step, State.turn, hh], hs' ▸ h.withHost hs⟩

/-- Any number of steps goes the same way in both. -/
theorem run (n : Nat) (h : Abreast p q s t) {s' : State} (hrun : Sys2Proof.core.run n s = .next s') :
    ∃ t', Sys2Proof.core.run n t = .next t' ∧ Abreast p q s' t' := by
  induction n generalizing s t with
  | zero =>
    injection hrun with hs'
    exact ⟨t, rfl, hs' ▸ h⟩
  | succ n ih =>
    obtain ⟨u, hstep, hrest⟩ := run_succ hrun
    obtain ⟨v, hstep', h'⟩ := h.step hstep
    obtain ⟨t', hrest', h''⟩ := ih h' hrest
    exact ⟨t', (run_of_step hstep' n).trans hrest', h''⟩

end Abreast
/-- Settles O59: the two machines start abreast and stay so. -/
theorem operationsDependOnTheirInputsOnly : Obligations.OperationsDependOnTheirInputsOnly := by
  intro n s t s' h hrun
  obtain ⟨t', hrun', habreast⟩ := h.abreast.run n hrun
  obtain ⟨es, hs, ht⟩ := habreast.events
  exact ⟨t', es, hrun', habreast.sameInputs, hs, ht⟩

end Sys2Proof.Machine
end

section
namespace Sys2Proof.Machine

/-! Whole operations (42_display R150 to R173): one rule for each phase and answer, brackets made of these, and
operations made of brackets. -/

/-- One step first, then the others. -/
theorem execTimes_succ {i : Instr} {s t : State} {n : Nat} {r : Result} (h : exec i s = .next t)
    (hrest : execTimes n i t = r) : execTimes (n + 1) i s = r := by
  simp only [execTimes, h, hrest]

/-- Some steps first, then the others. -/
theorem execTimes_add {i : Instr} {s t : State} {m n : Nat} {r : Result} (h : execTimes m i s = .next t)
    (hrest : execTimes n i t = r) : execTimes (m + n) i s = r := by
  induction m generalizing s with
  | zero =>
    injection h with h
    rw [Nat.zero_add, h, hrest]
  | succ m ih =>
    cases hexec : exec i s with
    | next u =>
      rw [Nat.succ_add]
      exact execTimes_succ hexec (ih (execTimes_succ hexec rfl ▸ h))
    | fault r => simp [execTimes, hexec] at h
    | refused r => simp [execTimes, hexec] at h

/-- Only BLIT's end touches more than seq and STATUS (42_display R152). -/
theorem complete_notBlit {s : State} (h : s.seq.isBlit = false) :
    s.complete = { s with seq := .ready, status := 0x01#8 } := by
  rw [State.complete, leaveOperation_notBlit h]
  rfl

theorem isBlit_of_ne {op : Op} (h : op ≠ .blit) (a : Bool) (i : Nat) (ph : Phase) :
    (Position.run op a i ph).isBlit = false := by
  cases op
  case blit => exact absurd rfl h
  all_goals rfl

section
variable {s : State} {op : Op} {a : Bool} {i : Nat} {st : SeqStep} {m : Mode}

/-- Acceptance (42_display R151): every operation's list opens with a bracket. -/
theorem exec_accept (hs : s.seq = .ready) (ha : op.takesArg = false → a = false) :
    exec (op.instr a) s = .next { s with status := 0x80#8, errcode := 0, seq := .run op a 0 .enter } := by
  rw [exec_ready hs ha, State.accept, prog_first]
  rfl

/-- ENTER answered Ok (40_mode R111). -/
theorem exec_enter_ok {ms : List ModeAnswer} (hs : s.seq = .run op a i .enter) (hst : (prog op a)[i]? = some st)
    (hm : st.mode? = some m) (hq : s.modeAnswers = .ok :: ms) :
    exec (op.instr a) s = .next { s with
      modeAnswers := ms
      trace := s.trace ++ [.modeEnter m .ok]
      linkMode := linkModeOf m
      link := m
      seq := .run op a i .body } :=
  (enterPhaseEntersOrAborts s op a i st m ms hs hst hm).1 hq

/-- ENTER answered Err(c) aborts (40_mode R111). -/
theorem exec_enter_err {c : ErrCode} {ms : List ModeAnswer} (hs : s.seq = .run op a i .enter)
    (hst : (prog op a)[i]? = some st) (hm : st.mode? = some m) (hq : s.modeAnswers = .err c :: ms) :
    exec (op.instr a) s =
      .next (State.abort (.mode c) { s with modeAnswers := ms, trace := s.trace ++ [.modeEnter m (.err c)] }) := by
  rw [exec_enter hs hst hm, modeEnter_err hq]
  rfl

/-- EXIT answered Err(c) aborts (40_mode R113). -/
theorem exec_exit_err {c : ErrCode} {ms : List ModeAnswer} (hs : s.seq = .run op a i .exit)
    (hst : (prog op a)[i]? = some st) (hm : st.mode? = some m) (hq : s.modeAnswers = .err c :: ms) :
    exec (op.instr a) s =
      .next (State.abort (.mode c) { s with modeAnswers := ms, trace := s.trace ++ [.modeEnter .idle (.err c)] }) := by
  rw [exec_exit hs hst hm, modeEnter_err hq]
  rfl

/-- A BODY whose write passes the write check (40_mode R104). -/
theorem exec_write_ok {bs : List Byte} {n : Nat} {ts : List TxAnswer} (hs : s.seq = .run op a i .body)
    (hst : (prog op a)[i]? = some st) (hm : st.mode? = some m) (hk : ∀ m p, st ≠ .hold m p)
    (hb : st.buffer s = bs) (hq : s.txAnswers = .ok n :: ts) (hn : bs.length ≤ n) :
    exec (op.instr a) s = .next { s with
      txAnswers := ts
      trace := s.trace ++ [.txWrite bs (.ok n)]
      wire := s.wire ++ bs.map (WireByte.mk s.linkMode)
      seq := .run op a i .exit } := by
  subst hb
  rw [exec_write hs hst hm hk, writeChecked_ok hq (if_neg (Nat.not_lt.mpr hn))]
  exact congrArg _ (toPhase_eq .exit hs)

/-- A BODY whose write fails the write check aborts (40_mode R104). -/
theorem exec_write_fails {bs : List Byte} {r : TxAnswer} {ts : List TxAnswer} {f : Failure}
    (hs : s.seq = .run op a i .body) (hst : (prog op a)[i]? = some st) (hm : st.mode? = some m)
    (hk : ∀ m p, st ≠ .hold m p) (hb : st.buffer s = bs) (hq : s.txAnswers = r :: ts)
    (hw : writeCheck bs.length r = some f) :
    exec (op.instr a) s = .next (State.abort f { s with
      txAnswers := ts
      trace := s.trace ++ [.txWrite bs r]
      wire := s.wire ++ bs.map (WireByte.mk s.linkMode) }) := by
  subst hb
  rw [exec_write hs hst hm hk, writeChecked_fails hq hw]
  rfl

/-- EXIT answered Ok, with a step after it in the list (40_mode R113). -/
theorem exec_exit_next {ms : List ModeAnswer} {st' : SeqStep} (hs : s.seq = .run op a i .exit)
    (hst : (prog op a)[i]? = some st) (hm : st.mode? = some m) (hq : s.modeAnswers = .ok :: ms)
    (hn : (prog op a)[i + 1]? = some st') :
    exec (op.instr a) s = .next { s with
      modeAnswers := ms
      trace := s.trace ++ [.modeEnter .idle .ok]
      linkMode := 0b100#3
      link := .idle
      seq := .run op a (i + 1) st'.firstPhase } :=
  ((exitPhaseReturnsToIdleOrAborts s op a i st m ms hs hst hm).1 _ hq rfl).1 st' hn

/-- EXIT answered Ok completes the operation where its list ends (40_mode R113, 42_display R152). -/
theorem exec_exit_last {ms : List ModeAnswer} (hs : s.seq = .run op a i .exit) (hst : (prog op a)[i]? = some st)
    (hm : st.mode? = some m) (hq : s.modeAnswers = .ok :: ms) (hn : (prog op a)[i + 1]? = none) :
    exec (op.instr a) s = .next (State.complete { s with
      modeAnswers := ms
      trace := s.trace ++ [.modeEnter .idle .ok]
      linkMode := 0b100#3
      link := .idle }) := by
  rw [exec_exit hs hst hm, modeEnter_ok hq]
  exact congrArg _ (stepDone_last hs hn)

/-- The last EXIT of an operation that is not BLIT (42_display R152). -/
theorem exec_exit_completes {ms : List ModeAnswer} (hop : op ≠ .blit) (hs : s.seq = .run op a i .exit)
    (hst : (prog op a)[i]? = some st) (hm : st.mode? = some m) (hq : s.modeAnswers = .ok :: ms)
    (hn : (prog op a)[i + 1]? = none) :
    exec (op.instr a) s = .next { s with
      modeAnswers := ms
      trace := s.trace ++ [.modeEnter .idle .ok]
      linkMode := 0b100#3
      link := .idle
      seq := .ready
      status := 0x01#8 } := by
  rw [exec_exit_last hs hst hm hq hn, complete_notBlit]
  exact (congrArg Position.isBlit hs).trans (isBlit_of_ne hop a i .exit)

/-- ENTER and BODY of a write bracket on good responses (40_mode R116 a), up to its EXIT. -/
theorem execTimes_bracket {bs : List Byte} {n : Nat} {ms : List ModeAnswer} {ts : List TxAnswer}
    (hs : s.seq = .run op a i .enter) (hst : (prog op a)[i]? = some st) (hm : st.mode? = some m)
    (hk : ∀ m p, st ≠ .hold m p) (hb : st.buffer s = bs) (hq : s.modeAnswers = .ok :: ms)
    (hx : s.txAnswers = .ok n :: ts) (hn : bs.length ≤ n) :
    execTimes 2 (op.instr a) s = .next { s with
      modeAnswers := ms
      txAnswers := ts
      linkMode := linkModeOf m
      link := m
      trace := s.trace ++ [.modeEnter m .ok, .txWrite bs (.ok n)]
      wire := s.wire ++ onWire m bs
      seq := .run op a i .exit } := by
  refine execTimes_succ (exec_enter_ok hs hst hm hq)
    (execTimes_succ (exec_write_ok rfl hst hm hk ((buffer_congr (fun _ _ => rfl) rfl).trans hb) hx hn) ?_)
  simp only [List.append_assoc, List.cons_append, List.nil_append]
  rfl

end

/-- A HOLD step on good responses (40_mode R112), with a step after it in the list. -/
theorem execTimes_hold {s : State} {op : Op} {a : Bool} {i : Nat} {m : Mode} {p : DelayParam} {st' : SeqStep}
    {ms : List ModeAnswer} (hs : s.seq = .run op a i .enter) (hst : (prog op a)[i]? = some (.hold m p))
    (hn : (prog op a)[i + 1]? = some st') (hq : s.modeAnswers = .ok :: .ok :: ms) :
    execTimes 3 (op.instr a) s = .next { s with
      modeAnswers := ms
      linkMode := 0b100#3
      link := .idle
      trace := s.trace ++ [.modeEnter m .ok, .delay p, .modeEnter .idle .ok]
      seq := .run op a (i + 1) st'.firstPhase } := by
  refine execTimes_succ (exec_enter_ok hs hst rfl hq) ?_
  refine execTimes_succ ((bodyPhaseWritesOnceOrAborts _ op a i rfl).2 m p hst) ?_
  refine execTimes_succ (exec_exit_next rfl hst rfl rfl hn) ?_
  simp only [execTimes, List.append_assoc, List.cons_append, List.nil_append]

/-- CLEAR, SETON and SETINV are one bracket in Command mode (42_display R150). -/
theorem execTimes_singleBracket {s : State} {op : Op} {a : Bool} {cmds : List Instr} {n : Nat} {ms : List ModeAnswer}
    {ts : List TxAnswer} (hprog : prog op a = [.tx .command cmds]) (hop : op ≠ .blit)
    (ha : op.takesArg = false → a = false) (hs : s.seq = .ready) (hq : s.modeAnswers = .ok :: .ok :: ms)
    (hx : s.txAnswers = .ok n :: ts) (hn : (commandBytes s.params.wireOpc cmds).length ≤ n) :
    execTimes 4 (op.instr a) s = .next { s with
      status := 0x01#8
      errcode := 0
      linkMode := 0b100#3
      link := .idle
      modeAnswers := ms
      txAnswers := ts
      trace := s.trace ++ bracketEvents .command (commandBytes s.params.wireOpc cmds) n
      wire := s.wire ++ onWire .command (commandBytes s.params.wireOpc cmds) } := by
  have hst : (prog op a)[0]? = some (.tx .command cmds) := by rw [hprog]; rfl
  have hend : (prog op a)[0 + 1]? = none := by rw [hprog]; rfl
  refine execTimes_succ (exec_accept hs ha) (execTimes_add (m := 2) (n := 1)
    (execTimes_bracket rfl hst rfl (by simp) rfl hq hx hn)
    (execTimes_succ (exec_exit_completes hop rfl hst rfl rfl hend) ?_))
  rw [← hs]
  simp only [execTimes, bracketEvents, List.append_assoc, List.cons_append, List.nil_append]
  rfl

/-- Settles O23: the words by the decoder's table, acceptance by its rule, the first phases by the step's kind. -/
theorem operationsAreAcceptedAtReady : Obligations.OperationsAreAcceptedAtReady := by
  refine ⟨⟨rfl, rfl, rfl, fun a => by cases a <;> exact ⟨rfl, rfl⟩⟩, fun s hs => ?_, fun _ _ => rfl, fun _ _ => rfl,
    fun _ => rfl, fun _ => rfl⟩
  exact ⟨exec_accept (op := .init) hs fun _ => rfl, exec_accept (op := .clear) hs fun _ => rfl,
    fun _ => exec_accept (op := .seton) hs nofun, fun _ => exec_accept (op := .setinv) hs nofun,
    exec_accept (op := .blit) hs fun _ => rfl⟩

/-- BLIT's list has ROW(r) at place r + 1 (42_display R150). -/
theorem prog_row (a : Bool) {r : Nat} (hr : r < 64) : (prog .blit a)[1 + r]? = some (.row r) := by
  rw [Nat.add_comm]
  simp [prog, hr]

/-- Settles O22: the table is the definition, but for BLIT's rows. -/
theorem stepListsOfTheOperations : Obligations.StepListsOfTheOperations :=
  fun a => ⟨rfl, rfl, rfl, rfl, rfl, rfl, fun _ => prog_row a⟩

/-- Settles O35: each of the five forms is one bracket with its bytes. -/
theorem singleBracketOperationsRunToCompletion : Obligations.SingleBracketOperationsRunToCompletion := by
  intro s i bs n ms ts hs hform hq hx hn
  simp only [List.mem_cons, List.not_mem_nil, or_false, Prod.mk.injEq] at hform
  obtain ⟨rfl, rfl⟩ | ⟨rfl, rfl⟩ | ⟨rfl, rfl⟩ | ⟨rfl, rfl⟩ | ⟨rfl, rfl⟩ := hform
  · exact execTimes_singleBracket (op := .clear) (a := false) rfl (by decide) (fun _ => rfl) hs hq hx hn
  · exact execTimes_singleBracket (op := .seton) (a := true) rfl (by decide) nofun hs hq hx hn
  · exact execTimes_singleBracket (op := .seton) (a := false) rfl (by decide) nofun hs hq hx hn
  · exact execTimes_singleBracket (op := .setinv) (a := true) rfl (by decide) nofun hs hq hx hn
  · exact execTimes_singleBracket (op := .setinv) (a := false) rfl (by decide) nofun hs hq hx hn

/-- Settles O34: the HOLD, the WAIT and the bracket of INIT_SEQ, phase by phase. -/
theorem initRunsToCompletion : Obligations.InitRunsToCompletion := by
  rintro s n ms ts evs hs hq hx hn rfl
  refine ⟨?_, rfl, ?_⟩
  · generalize hbs : commandBytes s.params.wireOpc initSeq = bs
    have hlen : bs.length ≤ n := hbs ▸ hn
    have hhold : (prog .init false)[0]? = some (.hold .reset .tResetHold) := rfl
    have hwait : (prog .init false)[1]? = some (.wait .tResetSettle) := rfl
    have htx : (prog .init false)[2]? = some (.tx .command initSeq) := rfl
    refine execTimes_succ (exec_accept (op := .init) hs fun _ => rfl) ?_
    refine execTimes_add (m := 3) (n := 4) (execTimes_hold rfl hhold hwait hq) ?_
    refine execTimes_succ (waitStepOnlyDelays _ .init false 1 .tResetSettle _ rfl hwait htx) ?_
    refine execTimes_add (m := 2) (n := 1) (execTimes_bracket rfl htx rfl (by simp) hbs rfl hx hlen) ?_
    refine execTimes_succ (exec_exit_completes (by decide) rfl htx rfl rfl rfl) ?_
    rw [← hs]
    simp only [execTimes, List.append_assoc, List.cons_append, List.nil_append]
  · simp [blockingTime, Event.leastTime, DelayParam.time]

end Sys2Proof.Machine
end

section
namespace Sys2Proof.Machine

/-! BLIT (42_display R170 to R172): one row, the rows sent so far, and where the first failure stops them. -/

/-- Where no byte is raced, the row read is the frame's row (20_memory R51, 70_reset R236). -/
theorem frameRow_eq_rowBytes {s : State} {r : Nat} (hr : r < 64) (h : s.raced = []) :
    s.frameRow r = rowBytes s.frame r := by
  apply List.map_congr_left
  intro c hc
  simp only [State.frameRead, State.oldBytes, h, List.filter_nil, List.map_nil,
    frameAddr_toNat hr (List.mem_range.mp hc)]

/-- A ROW's PACK, run by BLIT's instruction (42_display R171). -/
theorem exec_blit_pack {s : State} {a : Bool} {r : Nat} {row : List Byte} (hr : r < 64)
    (hs : s.seq = .run .blit a (1 + r) .pack) (hrow : row = packRow (s.frameRow r)) :
    exec .blit s = .next { s with wrow := row, draws := s.draws + 16, seq := .run .blit a (1 + r) .enter } := by
  rw [hrow, ← packPhase_eq r hs]
  exact exec_rowPack hs (prog_row a hr)

/-- PACK, ENTER and BODY of ROW(r) on good responses, up to its EXIT (42_display R171). -/
theorem execTimes_row {s : State} {a : Bool} {r n : Nat} {row : List Byte} {ms : List ModeAnswer} {ts : List TxAnswer}
    (hr : r < 64) (hs : s.seq = .run .blit a (1 + r) .pack) (hrow : row = packRow (s.frameRow r))
    (hq : s.modeAnswers = .ok :: ms) (hx : s.txAnswers = .ok n :: ts) (hn : 64 ≤ n) :
    execTimes 3 .blit s = .next { s with
      wrow := row
      draws := s.draws + 16
      modeAnswers := ms
      txAnswers := ts
      linkMode := linkModeOf .data
      link := .data
      trace := s.trace ++ [.modeEnter .data .ok, .txWrite row (.ok n)]
      wire := s.wire ++ onWire .data row
      seq := .run .blit a (1 + r) .exit } := by
  have hlen : row.length ≤ n := by rwa [hrow, packRow_length, frameRow_length]
  exact execTimes_succ (exec_blit_pack hr hs hrow)
    (execTimes_bracket (op := .blit) rfl (prog_row a hr) rfl (by simp) rfl hq hx hlen)

/-- Settles O31: PACK, then the row's bracket, whose EXIT begins the next row or completes. -/
theorem rowStepPacksThenWrites : Obligations.RowStepPacksThenWrites := by
  rintro s a r n ms ts row u hr hs hrow rfl
  refine ⟨exec_blit_pack hr hs hrow, fun h => by rw [hrow, frameRow_eq_rowBytes hr h], fun hq hx hn => ⟨?_, ?_⟩⟩
  · intro hr'
    have hnext : (prog .blit a)[1 + r + 1]? = some (.row (r + 1)) := prog_row a (r := r + 1) (by omega)
    refine execTimes_add (m := 3) (n := 1) (execTimes_row hr hs hrow hq hx hn)
      (execTimes_succ (exec_exit_next (op := .blit) rfl (prog_row a hr) rfl rfl hnext) ?_)
    simp only [execTimes, bracketEvents, List.append_assoc, List.cons_append, List.nil_append]
    rw [show 2 + r = 1 + r + 1 by omega]
    rfl
  · rintro rfl
    refine ⟨_, execTimes_add (m := 3) (n := 1) (execTimes_row hr hs hrow hq hx hn)
      (execTimes_succ (exec_exit_last (op := .blit) rfl (prog_row a hr) rfl rfl rfl) rfl), ?_⟩
    simp only [bracketEvents, List.append_assoc, List.cons_append, List.nil_append]
    exact completedFrom_complete _

/-- The completion of a BLIT ends its races (42_display R152, 70_reset R236). -/
theorem complete_blit {s : State} {a : Bool} {i : Nat} {ph : Phase} (hs : s.seq = .run .blit a i ph) :
    s.complete = { s with
      seq := .ready
      status := 0x01#8
      raced := []
      wrow := freeRow s.draws
      draws := s.draws + 1 } := by
  rw [State.complete, State.leaveOperation, hs]
  rfl

/-- The bytes of a BLIT's preamble and first k rows on the wire. -/
def blitWire (s : State) (k : Nat) : List WireByte :=
  onWire .command (commandBytes s.params.wireOpc blitPre) ++
    (List.range k).flatMap (fun r => onWire .data (packRow (rowBytes s.frame r)))

/-- A BLIT accepted in `s` with good responses so far, at ROW(k)'s PACK: these answers are left, and WROW and the
counter are `w` and `d`. -/
def State.atRow (s : State) (n : Nat) (ns : List Nat) (k : Nat) (ms : List ModeAnswer) (ts : List TxAnswer)
    (w : List Byte) (d : Nat) : State :=
  { s with
    seq := .run .blit false (1 + k) .pack
    status := 0x80#8
    errcode := 0
    linkMode := 0b100#3
    link := .idle
    wrow := w
    draws := d
    modeAnswers := ms
    txAnswers := ts
    trace := s.trace ++ blitEvents s n ns k
    wire := s.wire ++ blitWire s k }

section
variable {s : State} {n k : Nat} {ns : List Nat} {ms : List ModeAnswer} {ts : List TxAnswer}

theorem blitEvents_succ (s : State) (n : Nat) (ns : List Nat) (k : Nat) :
    blitEvents s n ns (k + 1) =
      blitEvents s n ns k ++ bracketEvents .data (packRow (rowBytes s.frame k)) (ns.getD k 0) := by
  simp [blitEvents, List.range_succ]

theorem blitWire_succ (s : State) (k : Nat) :
    blitWire s (k + 1) = blitWire s k ++ onWire .data (packRow (rowBytes s.frame k)) := by
  simp [blitWire, List.range_succ]

/-- The preamble on good responses (42_display R170). -/
theorem execTimes_preamble (hs : s.seq = .ready) (hq : s.modeAnswers = .ok :: .ok :: ms)
    (hx : s.txAnswers = .ok n :: ts) (hn : 6 ≤ n) :
    execTimes 4 .blit s = .next (s.atRow n ns 0 ms ts s.wrow s.draws) := by
  refine execTimes_succ (exec_accept (op := .blit) hs fun _ => rfl) (execTimes_add (m := 2) (n := 1)
    (execTimes_bracket (op := .blit) rfl rfl rfl (by simp) rfl hq hx hn)
    (execTimes_succ (exec_exit_next (op := .blit) rfl rfl rfl rfl (prog_row false (r := 0) (by decide))) ?_))
  simp only [execTimes, State.atRow, blitEvents, blitWire, bracketEvents, List.range_zero, List.flatMap_nil,
    List.append_nil, List.append_assoc, List.cons_append, List.nil_append]
  rfl

/-- With no race ROW(k) reads the frame's row k. -/
theorem packRow_frameRow_atRow {w : List Byte} {d : Nat} (hr : s.raced = []) (hk : k < 64) :
    packRow (rowBytes s.frame k) = packRow ((s.atRow n ns k ms ts w d).frameRow k) :=
  congrArg packRow (frameRow_eq_rowBytes (s := s.atRow n ns k ms ts w d) hk hr).symm

/-- ROW(k) on good responses, with a row after it. -/
theorem execTimes_atRow {w : List Byte} {d : Nat} (hr : s.raced = []) (hk : k < 63) (hn : 64 ≤ ns.getD k 0) :
    ∃ w' d', execTimes 4 .blit (s.atRow n ns k (.ok :: .ok :: ms) (.ok (ns.getD k 0) :: ts) w d) =
      .next (s.atRow n ns (k + 1) ms ts w' d') := by
  have hk' : k < 64 := by omega
  have hnext : (prog .blit false)[1 + k + 1]? = some (.row (k + 1)) := prog_row false (r := k + 1) (by omega)
  refine ⟨packRow (rowBytes s.frame k), d + 16,
    execTimes_add (m := 3) (n := 1) (execTimes_row hk' rfl (packRow_frameRow_atRow hr hk') rfl rfl hn)
      (execTimes_succ (exec_exit_next (op := .blit) rfl (prog_row false hk') rfl rfl hnext) ?_)⟩
  simp only [execTimes, State.atRow, blitEvents_succ, blitWire_succ, bracketEvents, List.append_assoc,
    List.cons_append, List.nil_append]
  rfl

/-- ROW(63) on good responses completes the BLIT (42_display R152). -/
theorem execTimes_lastRow {w : List Byte} {d : Nat} (hs : s.seq = .ready) (hr : s.raced = [])
    (hn : 64 ≤ ns.getD 63 0) :
    ∃ w' d', execTimes 4 .blit (s.atRow n ns 63 (.ok :: .ok :: ms) (.ok (ns.getD 63 0) :: ts) w d) = .next { s with
      status := 0x01#8
      errcode := 0
      linkMode := 0b100#3
      link := .idle
      wrow := w'
      draws := d'
      modeAnswers := ms
      txAnswers := ts
      trace := s.trace ++ blitEvents s n ns 64
      wire := s.wire ++ blitWire s 64 } := by
  have hrow : (prog .blit false)[1 + 63]? = some (.row 63) := rfl
  refine ⟨freeRow (d + 16), d + 16 + 1, execTimes_add (m := 3) (n := 1)
    (execTimes_row (r := 63) (by decide) rfl (packRow_frameRow_atRow hr (by decide)) rfl rfl hn)
    (execTimes_succ (exec_exit_last (op := .blit) rfl hrow rfl rfl rfl) ?_)⟩
  rw [complete_blit rfl, blitEvents_succ, blitWire_succ, ← hs, ← hr]
  simp only [execTimes, State.atRow, bracketEvents, List.append_assoc, List.cons_append, List.nil_append]

/-- The count the transport answers to row k, as `blitEvents` reads it. -/
theorem count_eq_getD (hk : k < ns.length) : ns[k] = ns.getD k 0 := by
  rw [List.getD_eq_getElem?_getD, List.getElem?_eq_getElem hk, Option.getD_some]

/-- The preamble and rows 0 to k - 1 on good responses, by induction on k: each row takes two answers of the driver and
one of the transport. -/
theorem execTimes_toRow (hs : s.seq = .ready) (hr : s.raced = [])
    (hq : s.modeAnswers = List.replicate (2 * ns.length + 2) .ok ++ ms)
    (hx : s.txAnswers = .ok n :: (ns.map .ok ++ ts)) (hn : 6 ≤ n) (hns : ∀ x ∈ ns, 64 ≤ x) (hk : k ≤ ns.length)
    (hk' : k < 64) :
    ∃ w d, execTimes (4 * k + 4) .blit s = .next (s.atRow n ns k
      (List.replicate (2 * (ns.length - k)) .ok ++ ms) ((ns.drop k).map .ok ++ ts) w d) := by
  induction k with
  | zero => exact ⟨_, _, execTimes_preamble hs hq hx hn⟩
  | succ k ih =>
    obtain ⟨w, d, hrun⟩ := ih (by omega) (by omega)
    have hget : ns[k] = ns.getD k 0 := count_eq_getD hk
    have hmode : 2 * (ns.length - k) = 2 * (ns.length - (k + 1)) + 2 := by omega
    rw [List.drop_eq_getElem_cons hk, hget, hmode] at hrun
    obtain ⟨w', d', hrow⟩ := execTimes_atRow hr (by omega) (hget ▸ hns _ (List.getElem_mem hk))
    exact ⟨w', d', execTimes_add hrun hrow⟩

end

/-! What the whole trace of a BLIT counts (42_display R173). -/

theorem observableCount_append (xs ys : List Event) :
    observableCount (xs ++ ys) = observableCount xs + observableCount ys := List.countP_append

theorem traceBytes_append (xs ys : List Event) : traceBytes (xs ++ ys) = traceBytes xs ++ traceBytes ys :=
  List.flatMap_append

theorem observableCount_bracketEvents (m : Mode) (bs : List Byte) (n : Nat) :
    observableCount (bracketEvents m bs n) = 3 := rfl

theorem traceBytes_bracketEvents (m : Mode) (bs : List Byte) (n : Nat) : traceBytes (bracketEvents m bs n) = bs := by
  simp [traceBytes, bracketEvents, Event.bytes]

theorem packRow_rowBytes_length (f : List Host.Cell) (r : Nat) : (packRow (rowBytes f r)).length = 64 := by
  simp [packRow_length, rowBytes]

/-- Three observable events for the preamble and for each row. -/
theorem observableCount_blitEvents (s : State) (n : Nat) (ns : List Nat) (k : Nat) :
    observableCount (blitEvents s n ns k) = 3 * k + 3 := by
  induction k with
  | zero => rfl
  | succ k ih =>
    rw [blitEvents_succ, observableCount_append, observableCount_bracketEvents, ih]
    omega

/-- Six bytes for the preamble and 64 for each row. -/
theorem traceBytes_blitEvents_length (s : State) (n : Nat) (ns : List Nat) (k : Nat) :
    (traceBytes (blitEvents s n ns k)).length = 64 * k + 6 := by
  induction k with
  | zero => simp [blitEvents, traceBytes_bracketEvents]; rfl
  | succ k ih =>
    rw [blitEvents_succ, traceBytes_append, List.length_append, traceBytes_bracketEvents, packRow_rowBytes_length, ih]
    omega

/-- Settles O36: the preamble and rows 0 to 62 by the induction, then ROW(63), whose EXIT completes. -/
theorem blitRunsToCompletion : Obligations.BlitRunsToCompletion := by
  rintro s n ns ms ts evs hs hr hq hx hn hlen hns rfl
  refine ⟨?_, observableCount_blitEvents s n ns 64, traceBytes_blitEvents_length s n ns 64⟩
  obtain ⟨w, d, hrun⟩ := execTimes_toRow (k := 63) hs hr (by rw [hq, hlen]) hx hn hns (by omega) (by decide)
  have hget : ns[63] = ns.getD 63 0 := count_eq_getD (by omega)
  have hlast : ns.drop 63 = [ns.getD 63 0] := by
    rw [List.drop_eq_getElem_cons (by omega), hget, List.drop_eq_nil_of_le (by omega)]
  rw [hlen, hlast] at hrun
  have hcount : 64 ≤ ns.getD 63 0 := hget ▸ hns _ (List.getElem_mem _)
  obtain ⟨w', d', hrow⟩ := execTimes_lastRow hs hr hcount
  refine ⟨_, execTimes_add hrun hrow, ?_⟩
  rw [blitWire, ← List.append_assoc]
  rfl

end Sys2Proof.Machine
end

section
namespace Sys2Proof.Machine

/-! BLIT's failures (42_display R172): what an abort leaves, whatever phase it comes from. -/

/-- An abort inside a bracket of a BLIT, as an update (60_exceptions R205). -/
theorem abort_blit {f : Failure} (hf : f.inBracket = true) {s : State} {a : Bool} {i : Nat} {ph : Phase}
    (hs : s.seq = .run .blit a i ph) :
    s.abort f = { s with
      seq := .ready
      status := 0#4 ++ f.result
      errcode := f.errcode s.params
      linkMode := clearValid s.linkMode
      link := Config.freeMode (s.draws + 1)
      raced := []
      wrow := freeRow s.draws
      draws := s.draws + 1 + 1 } := by
  rw [State.abort, if_pos hf, State.leaveOperation, hs]
  rfl

/-- `u` is a BLIT accepted in `s`, at that phase of step i, with these answers left and these events. -/
def BlitReached (s u : State) (i : Nat) (ph : Phase) (ms : List ModeAnswer) (ts : List TxAnswer)
    (evs : List Event) : Prop :=
  u = { s with
    seq := .run .blit false i ph
    status := u.status
    errcode := u.errcode
    linkMode := u.linkMode
    link := u.link
    wrow := u.wrow
    wire := u.wire
    draws := u.draws
    modeAnswers := ms
    txAnswers := ts
    trace := s.trace ++ evs }

section
variable {s u : State} {i j : Nat} {ph : Phase} {ms : List ModeAnswer} {ts : List TxAnswer} {evs : List Event}

theorem BlitReached.seq (h : BlitReached s u i ph ms ts evs) : u.seq = .run .blit false i ph := congrArg State.seq h

theorem BlitReached.params (h : BlitReached s u i ph ms ts evs) : u.params = s.params :=
  (congrArg State.params h :)

theorem BlitReached.modeAnswers (h : BlitReached s u i ph ms ts evs) : u.modeAnswers = ms :=
  congrArg State.modeAnswers h

theorem BlitReached.txAnswers (h : BlitReached s u i ph ms ts evs) : u.txAnswers = ts := congrArg State.txAnswers h

/-- A failing event ends the BLIT with its RESULT and ERRCODE, and is the last of its events (60_exceptions R205). -/
theorem BlitReached.aborted {f : Failure} (h : BlitReached s u i ph ms ts evs) (hf : f.inBracket = true)
    (hs : s.seq = .ready) (hr : s.raced = []) :
    BlitAborted s (u.abort f) f.result (f.errcode s.params) (u.linkMode.extractLsb' 0 2) ms ts evs := by
  rw [BlitAborted, abort_blit hf h.seq, h.params, h, ← hs, ← hr]
  rfl

/-- ENTER or EXIT answered Err(c) ends the BLIT with ERR_MODE (40_mode R111, R113). -/
theorem BlitReached.modeFails {st : SeqStep} {m m' : Mode} {c : ErrCode}
    (h : BlitReached s u i ph (.err c :: ms) ts evs) (hrun : execTimes j .blit s = .next u)
    (hst : (prog .blit false)[i]? = some st) (hm : st.mode? = some m)
    (hp : (ph = .enter ∧ m' = m) ∨ (ph = .exit ∧ m' = .idle)) (hs : s.seq = .ready) (hr : s.raced = []) :
    ∃ t, execTimes (j + 1) .blit s = .next t ∧
      BlitAborted s t 0x4#4 (placeCode s.params c) (u.linkMode.extractLsb' 0 2) ms ts
        (evs ++ [.modeEnter m' (.err c)]) := by
  have hreached : BlitReached s { u with modeAnswers := ms, trace := u.trace ++ [.modeEnter m' (.err c)] } i ph ms ts
      (evs ++ [.modeEnter m' (.err c)]) := by
    rw [BlitReached, h, ← List.append_assoc]
  refine ⟨_, execTimes_add hrun (execTimes_succ ?_ rfl), hreached.aborted (f := .mode c) rfl hs hr⟩
  obtain ⟨rfl, rfl⟩ | ⟨rfl, rfl⟩ := hp
  · exact exec_enter_err (op := .blit) h.seq hst hm h.modeAnswers
  · exact exec_exit_err (op := .blit) h.seq hst hm h.modeAnswers

/-- The two failures of a write, as the write check has them (40_mode R104). -/
theorem writeCheck_of_writeFails {p : Params} {len code : Nat} {r : TxAnswer} {result : BitVec 4}
    (h : WriteFails p len r result code) :
    ∃ f, writeCheck len r = some f ∧ f.result = result ∧ f.errcode p = code := by
  obtain ⟨n, rfl, hn, rfl, rfl⟩ | ⟨c, rfl, rfl, rfl⟩ := h
  · exact ⟨.writeFailed, if_pos hn, rfl, rfl⟩
  · exact ⟨.transport c, rfl, rfl, rfl⟩

/-- A BODY whose write fails ends the BLIT with the write's RESULT and ERRCODE (40_mode R104). -/
theorem BlitReached.writeFails {st : SeqStep} {m : Mode} {bs : List Byte} {r : TxAnswer} {result : BitVec 4}
    {code : Nat} (h : BlitReached s u i .body ms (r :: ts) evs) (hrun : execTimes j .blit s = .next u)
    (hst : (prog .blit false)[i]? = some st) (hm : st.mode? = some m) (hk : ∀ m p, st ≠ .hold m p)
    (hb : st.buffer u = bs) (hw : WriteFails s.params bs.length r result code) (hs : s.seq = .ready)
    (hr : s.raced = []) :
    ∃ t, execTimes (j + 1) .blit s = .next t ∧
      BlitAborted s t result code (u.linkMode.extractLsb' 0 2) ms ts (evs ++ [.txWrite bs r]) := by
  obtain ⟨f, hf, rfl, rfl⟩ := writeCheck_of_writeFails hw
  have hreached : BlitReached s
      { u with
        txAnswers := ts
        trace := u.trace ++ [.txWrite bs r]
        wire := u.wire ++ bs.map (WireByte.mk u.linkMode) } i .body ms ts (evs ++ [.txWrite bs r]) := by
    rw [BlitReached, h, ← List.append_assoc]
  have hexec := exec_write_fails (op := .blit) h.seq hst hm hk hb h.txAnswers hf
  exact ⟨_, execTimes_add hrun (execTimes_succ hexec rfl), hreached.aborted (writeCheck_inBracket hf) hs hr⟩

/-- BLIT's preamble at its ENTER. -/
theorem execTimes_preambleEnter (hs : s.seq = .ready) :
    ∃ u, execTimes 1 .blit s = .next u ∧ BlitReached s u 0 .enter s.modeAnswers s.txAnswers [] ∧
      u.linkMode = s.linkMode := by
  refine ⟨_, execTimes_succ (exec_accept (op := .blit) hs fun _ => rfl) rfl, ?_, rfl⟩
  rw [BlitReached, List.append_nil]

/-- BLIT's preamble at its BODY. -/
theorem execTimes_preambleBody (hs : s.seq = .ready) (hq : s.modeAnswers = .ok :: ms) :
    ∃ u, execTimes 2 .blit s = .next u ∧ BlitReached s u 0 .body ms s.txAnswers [.modeEnter .command .ok] ∧
      u.linkMode = linkModeOf .command :=
  ⟨_, execTimes_succ (exec_accept (op := .blit) hs fun _ => rfl)
    (execTimes_succ (exec_enter_ok (op := .blit) rfl rfl rfl hq) rfl), rfl, rfl⟩

/-- BLIT's preamble at its EXIT, its bytes sent. -/
theorem execTimes_preambleExit {n : Nat} (hs : s.seq = .ready) (hq : s.modeAnswers = .ok :: ms)
    (hx : s.txAnswers = .ok n :: ts) (hn : 6 ≤ n) :
    ∃ u, execTimes 3 .blit s = .next u ∧
      BlitReached s u 0 .exit ms ts
        [.modeEnter .command .ok, .txWrite (commandBytes s.params.wireOpc blitPre) (.ok n)] ∧
      u.linkMode = linkModeOf .command :=
  ⟨_, execTimes_succ (exec_accept (op := .blit) hs fun _ => rfl)
    (execTimes_bracket (op := .blit) rfl rfl rfl (by simp) rfl hq hx hn), rfl, rfl⟩

/-- The preamble and k whole rows on good responses, the answers to them being all that was taken. -/
theorem execTimes_wholeRows {n k : Nat} {ns : List Nat} (hs : s.seq = .ready) (hr : s.raced = [])
    (hq : s.modeAnswers = List.replicate (2 * k + 2) .ok ++ ms) (hx : s.txAnswers = .ok n :: (ns.map .ok ++ ts))
    (hn : 6 ≤ n) (hns : ∀ x ∈ ns, 64 ≤ x) (hlen : ns.length = k) (hk : k < 64) :
    ∃ w d, execTimes (4 * k + 4) .blit s = .next (s.atRow n ns k ms ts w d) := by
  subst hlen
  simpa using execTimes_toRow hs hr hq hx hn hns (Nat.le_refl _) hk

/-- ROW(k) at its ENTER. -/
theorem execTimes_rowEnter {n k : Nat} {ns : List Nat} {w : List Byte} {d : Nat} (hr : s.raced = []) (hk : k < 64) :
    ∃ u, execTimes 1 .blit (s.atRow n ns k ms ts w d) = .next u ∧
      BlitReached s u (1 + k) .enter ms ts (blitEvents s n ns k) ∧ u.linkMode = 0b100#3 :=
  ⟨_, execTimes_succ (exec_blit_pack hk rfl (packRow_frameRow_atRow hr hk)) rfl, rfl, rfl⟩

/-- ROW(k) at its BODY, its row packed. -/
theorem execTimes_rowBody {n k : Nat} {ns : List Nat} {w : List Byte} {d : Nat} (hr : s.raced = []) (hk : k < 64) :
    ∃ u, execTimes 2 .blit (s.atRow n ns k (.ok :: ms) ts w d) = .next u ∧
      BlitReached s u (1 + k) .body ms ts (blitEvents s n ns k ++ [.modeEnter .data .ok]) ∧
      u.linkMode = linkModeOf .data ∧ u.wrow = packRow (rowBytes s.frame k) := by
  refine ⟨_, execTimes_succ (exec_blit_pack hk rfl (packRow_frameRow_atRow hr hk))
    (execTimes_succ (exec_enter_ok (op := .blit) rfl (prog_row false hk) rfl rfl) rfl), ?_, rfl, rfl⟩
  rw [BlitReached, ← List.append_assoc]
  rfl

/-- ROW(k) at its EXIT, its row sent. -/
theorem execTimes_rowExit {n n' k : Nat} {ns : List Nat} {w : List Byte} {d : Nat} (hr : s.raced = []) (hk : k < 64)
    (hn : 64 ≤ n') :
    ∃ u, execTimes 3 .blit (s.atRow n ns k (.ok :: ms) (.ok n' :: ts) w d) = .next u ∧
      BlitReached s u (1 + k) .exit ms ts
        (blitEvents s n ns k ++ [.modeEnter .data .ok, .txWrite (packRow (rowBytes s.frame k)) (.ok n')]) ∧
      u.linkMode = linkModeOf .data := by
  refine ⟨_, execTimes_row hk rfl (packRow_frameRow_atRow hr hk) rfl rfl hn, ?_, rfl⟩
  rw [BlitReached, ← List.append_assoc]
  rfl

end

/-- Settles O37: each case is a run on good responses up to the failing phase, and that phase's failure. -/
theorem blitStopsAtTheFirstFailure : Obligations.BlitStopsAtTheFirstFailure := by
  rintro s c n code result r ms ts pre hs hr rfl
  refine ⟨fun hq hx => ?_, fun hw hq hx => ?_, fun hq hx hn => ?_, ?_⟩
  · obtain ⟨u, hrun, hreached, hlink⟩ := execTimes_preambleEnter hs
    rw [hq, hx] at hreached
    rw [← hlink]
    exact hreached.modeFails hrun rfl rfl (.inl ⟨rfl, rfl⟩) hs hr
  · obtain ⟨u, hrun, hreached, hlink⟩ := execTimes_preambleBody hs hq
    rw [hx] at hreached
    have hbuf : SeqStep.buffer (.tx .command blitPre) u = commandBytes s.params.wireOpc blitPre := by
      rw [SeqStep.buffer, hreached.params]
    have hstop := hreached.writeFails hrun rfl rfl (by simp) hbuf hw hs hr
    rwa [hlink, linkModeOf_mode] at hstop
  · obtain ⟨u, hrun, hreached, hlink⟩ := execTimes_preambleExit hs hq hx hn
    have hstop := hreached.modeFails hrun rfl rfl (.inr ⟨rfl, rfl⟩) hs hr
    rwa [hlink, linkModeOf_mode] at hstop
  · rintro k ns row hk hn hlen hns rfl
    have hrow := prog_row false hk
    refine ⟨fun hq hx => ?_, fun hw hq hx => ?_, fun n' hn' hq hx => ?_⟩
    · obtain ⟨w, d, hrows⟩ := execTimes_wholeRows hs hr hq hx hn hns hlen hk
      obtain ⟨u, hrun, hreached, hlink⟩ := execTimes_rowEnter (w := w) (d := d) hr hk
      have hstop := hreached.modeFails (execTimes_add hrows hrun) hrow rfl (.inl ⟨rfl, rfl⟩) hs hr
      rwa [hlink] at hstop
    · rw [List.replicate_succ', List.append_assoc] at hq
      obtain ⟨w, d, hrows⟩ := execTimes_wholeRows hs hr hq hx hn hns hlen hk
      obtain ⟨u, hrun, hreached, hlink, hbuf⟩ := execTimes_rowBody (w := w) (d := d) hr hk
      rw [← packRow_rowBytes_length s.frame k] at hw
      have hstop := hreached.writeFails (execTimes_add hrows hrun) hrow rfl (by simp) hbuf hw hs hr
      rwa [hlink, linkModeOf_mode, List.append_assoc] at hstop
    · rw [List.replicate_succ', List.append_assoc] at hq
      obtain ⟨w, d, hrows⟩ := execTimes_wholeRows hs hr hq hx hn hns hlen hk
      obtain ⟨u, hrun, hreached, hlink⟩ := execTimes_rowExit (w := w) (d := d) hr hk hn'
      have hstop := hreached.modeFails (execTimes_add hrows hrun) hrow rfl (.inr ⟨rfl, rfl⟩) hs hr
      rwa [hlink, linkModeOf_mode, List.append_assoc] at hstop

end Sys2Proof.Machine
end

section
namespace Sys2Proof.Machine

/-! Positions (10_state R27, 42_display R150): which are legal, and that a step from one answers and reaches one. -/

/-- RUN(op, a, i, ph) is a position where the argument is 0 for an operation that takes none, and step i has that
phase. -/
theorem legal_run_iff {op : Op} {a : Bool} {i : Nat} {ph : Phase} :
    (Position.run op a i ph).legal = true ↔
      (op.takesArg = false → a = false) ∧ ∃ st, (prog op a)[i]? = some st ∧ ph ∈ st.phases := by
  have harg : (op.takesArg || !a) = true ↔ (op.takesArg = false → a = false) := by
    cases op.takesArg <;> simp
  rw [Position.legal, Bool.and_eq_true, harg]
  cases (prog op a)[i]? <;> simp

/-- A step starts at one of its phases (42_display R151). -/
theorem firstPhase_mem_phases (st : SeqStep) : st.firstPhase ∈ st.phases := by
  cases st <;> exact List.mem_cons_self

/-- A step with a bracket has the bracket's phases (40_mode R110). -/
theorem bracket_mem_phases {st : SeqStep} {m : Mode} (hm : st.mode? = some m) {ph : Phase}
    (hp : ph ∈ [Phase.enter, .body, .exit]) : ph ∈ st.phases := by
  cases st with
  | tx | hold => exact hp
  | row => exact List.mem_cons_of_mem _ hp
  | wait => cases hm

/-- Every operation has a step 0. -/
theorem exists_firstStep (op : Op) (a : Bool) : ∃ st, (prog op a)[0]? = some st := by
  cases op <;> exact ⟨_, rfl⟩

/-- READY is a position. -/
theorem seqIsPosition_ready {s : State} (hs : s.seq = .ready) : SeqIsPosition s := by
  rw [SeqIsPosition, hs]
  rfl

/-- Every phase a step kind has answers. -/
theorem phaseOf_answers {st : SeqStep} {ph : Phase} (h : ph ∈ st.phases) (s : State) :
    ∃ t, s.phaseOf st ph = .next t := by
  cases st <;> simp only [SeqStep.phases, List.mem_cons, List.not_mem_nil, or_false] at h
  case tx | hold => obtain rfl | rfl | rfl := h <;> exact ⟨_, rfl⟩
  case wait => subst h; exact ⟨_, rfl⟩
  case row => obtain rfl | rfl | rfl | rfl := h <;> exact ⟨_, rfl⟩

/-- Every word of OPREQ is answered at READY (10_state R24). -/
theorem exec_decode_answers {s : State} (hs : s.seq = .ready) (w : Byte) : ∃ t, exec (decode w) s = .next t := by
  obtain ⟨op, a, hd, ha⟩ | hd := decode_cases w <;> rw [hd]
  · exact ⟨_, exec_ready hs ha⟩
  · exact ⟨_, exec_reserved_ready hs w⟩

/-- The block's move from a position answers: its phase, the word at OPREQ, or the wait for one. -/
theorem step_blockNext_answers {s u : State} (hb : BlockNext s u) (hu : SeqIsPosition u) : ∃ t, step s = .next t := by
  cases hs : u.seq with
  | run op a i ph =>
    rw [SeqIsPosition, hs, legal_run_iff] at hu
    obtain ⟨-, st, hst, hp⟩ := hu
    rw [step_blockNext_inFlight hb hs, exec_inFlight hs, State.runPhase, hst]
    exact phaseOf_answers hp u
  | ready =>
    cases ho : u.offers with
    | nil => exact ⟨u, step_blockNext_idle hb hs ho⟩
    | cons w ws =>
      rw [step_blockNext_offer hb hs ho]
      exact exec_decode_answers (s := { u with offers := ws }) hs w

/-- A step from a position answers: every move of the host does, and so does the block's (60_exceptions R202). -/
theorem step_answers {s : State} (h : SeqIsPosition s) : ∃ t, step s = .next t := by
  cases hh : s.host with
  | nil => exact step_blockNext_answers (.inl ⟨hh, rfl⟩) h
  | cons m hs =>
    cases m with
    | letRun => exact step_blockNext_answers (u := { s with host := hs }) (.inr ⟨hs, hh, rfl⟩) h
    | offer | blockReset | packIn | frameWrite | writeStatus =>
      simp only [step, State.turn, hh]
      exact ⟨_, rfl⟩

/-- From a position, a phase leads to one: the next phase of the same step, the first of the next, or READY. -/
theorem PhaseEffect.seqIsPosition {op : Op} {a : Bool} {i : Nat} {ph : Phase} {st : SeqStep} {s t : State}
    (he : PhaseEffect op a i ph st s t) (hs : s.seq = .run op a i ph) (hst : (prog op a)[i]? = some st)
    (h : SeqIsPosition s) : SeqIsPosition t := by
  have harg : op.takesArg = false → a = false := by
    rw [SeqIsPosition, hs, legal_run_iff] at h
    exact h.1
  cases he with
  | waits ht => exact ht ▸ h
  | modeFails _ _ _ _ _ ht => exact ht ▸ seqIsPosition_ready (State_abort_seq _ _)
  | writeFails _ _ _ _ _ _ _ _ _ ht => exact ht ▸ seqIsPosition_ready (State_abort_seq _ _)
  | completes _ _ _ _ _ _ ht => exact ht ▸ seqIsPosition_ready (State_complete_seq _)
  | enters _ _ _ hm _ ht | writes _ _ _ _ hm _ _ _ ht =>
    subst ht
    exact legal_run_iff.mpr ⟨harg, st, hst, bracket_mem_phases hm (by decide)⟩
  | holds _ _ _ hkind ht | packs _ _ hkind ht =>
    subst ht hkind
    exact legal_run_iff.mpr ⟨harg, _, hst, bracket_mem_phases rfl (by decide)⟩
  | exits _ _ st' _ _ _ hn ht | delays _ st' _ _ hn ht =>
    subst ht
    exact legal_run_iff.mpr ⟨harg, st', hn, firstPhase_mem_phases st'⟩

/-- Acceptance leads to the first phase of step 0 (42_display R151). -/
theorem seqIsPosition_accept {op : Op} {a : Bool} (ha : op.takesArg = false → a = false) (s : State) :
    SeqIsPosition (s.accept op a) := by
  obtain ⟨st, hst⟩ := exists_firstStep op a
  rw [SeqIsPosition, State_accept_seq, legal_run_iff, hst]
  exact ⟨ha, st, rfl, firstPhase_mem_phases st⟩

/-- A step from a position leads to one (10_state R27, R28). -/
theorem step_seqIsPosition : ∀ s t : State, SeqIsPosition s → step s = .next t → SeqIsPosition t := by
  apply step_keeps SeqIsPosition
  case accepts => exact fun s _ _ _ _ ha => seqIsPosition_accept ha s
  case reserved => exact fun _ _ _ => seqIsPosition_ready (State_abort_seq _ _)
  case phases => exact fun _ _ _ _ _ _ _ hs hst he h => he.seqIsPosition hs hst h
  case resets => exact fun _ _ => seqIsPosition_ready rfl
  case frames => exact fun _ _ _ h => h
  case moves | offers | ports => exact fun _ _ h => h

/-- Settles O48: a step from a position answers, and what it answers is at a position. -/
theorem stepsNeverStopAndKeepPositions : Obligations.StepsNeverStopAndKeepPositions := by
  intro s h
  obtain ⟨t, ht⟩ := step_answers h
  exact ⟨t, ht, step_seqIsPosition s t h ht⟩

end Sys2Proof.Machine
end

section
namespace Sys2Proof.Machine

/-! Failures (60_exceptions R205, R206): what a failing response leaves no room for. -/

/-- Only the ENTER of step 0 is before an operation's events. -/
theorem beforeEvents_run_iff {op : Op} {a : Bool} {i : Nat} {ph : Phase} :
    (Position.run op a i ph).beforeEvents = true ↔ i = 0 ∧ ph = .enter := by
  simp [Position.beforeEvents]

/-- READY is before an operation's events. -/
theorem beforeEvents_ready {s : State} (hs : s.seq = .ready) : s.seq.beforeEvents = true := by
  rw [hs]
  rfl

/-- The bracket of step 0 is entered in Reset or in Command (42_display R150). -/
theorem modeEnter_opens {op : Op} {a : Bool} {i : Nat} {st : SeqStep} {m : Mode} (hst : (prog op a)[i]? = some st)
    (hm : st.mode? = some m) (hi : i = 0) (r : ModeAnswer) : (Event.modeEnter m r).opens = true := by
  obtain ⟨rfl, -⟩ | ⟨rfl, -⟩ | ⟨-, k, -, -, -, hk⟩ := mode?_cases hst hm
  · rfl
  · rfl
  · omega

/-- With no event more, a machine before an operation's events has to stay there. -/
theorem FailureEndsOperation.of_sameTrace {s t : State} (h : FailureEndsOperation s) (htr : t.trace = s.trace)
    (hseq : s.seq.beforeEvents = true → t.seq.beforeEvents = true) : FailureEndsOperation t := by
  obtain ⟨hopens, hlast⟩ := h
  rw [FailureEndsOperation, htr]
  exact ⟨hopens, fun pre e he hfail => hseq (hlast pre e he hfail)⟩

/-- One event more has to open an operation where it is an operation's first, and to leave the machine before the next
one's events where it fails. -/
theorem FailureEndsOperation.of_event {s t : State} {e : Event} (h : FailureEndsOperation s)
    (htr : t.trace = s.trace ++ [e]) (hfirst : s.seq.beforeEvents = true → e.opens = true)
    (hends : e.failed = true → t.seq.beforeEvents = true) : FailureEndsOperation t := by
  obtain ⟨hopens, hlast⟩ := h
  rw [FailureEndsOperation, htr]
  constructor
  · intro pre e' f post heq hfail
    obtain rfl | ⟨post', g, rfl⟩ := post.eq_nil_or_concat
    · have hsplit : s.trace ++ [e] = (pre ++ [e']) ++ [f] := by simpa using heq
      obtain ⟨hpre, hf⟩ := List.append_inj' hsplit rfl
      cases hf
      exact hfirst (hlast pre e' hpre hfail)
    · have hsplit : s.trace ++ [e] = (pre ++ e' :: f :: post') ++ [g] := by simpa using heq
      obtain ⟨hpre, -⟩ := List.append_inj' hsplit rfl
      exact hopens pre e' f post' hpre hfail
  · intro pre e' heq hfail
    obtain ⟨-, he⟩ := List.append_inj' heq rfl
    cases he
    exact hends hfail

/-- A phase that logs an event is the ENTER of a bracket or past its operation's first event, and where the event fails
it aborts. -/
theorem PhaseEffect.failureEndsOperation {op : Op} {a : Bool} {i : Nat} {ph : Phase} {st : SeqStep} {s t : State}
    (he : PhaseEffect op a i ph st s t) (hs : s.seq = .run op a i ph) (hst : (prog op a)[i]? = some st)
    (h : FailureEndsOperation s) : FailureEndsOperation t := by
  have hfirst : s.seq.beforeEvents = true ↔ i = 0 ∧ ph = .enter := by rw [hs, beforeEvents_run_iff]
  cases he with
  | waits ht => exact ht ▸ h
  | packs r hp _ ht =>
    subst hp
    exact h.of_sameTrace (by rw [ht]) (by simp [hfirst])
  | enters m _ hp hm _ ht =>
    exact h.of_event (by rw [ht]) (fun hb => modeEnter_opens hst hm (hfirst.mp hb).1 _) (by simp [Event.failed])
  | modeFails m c _ hp _ ht =>
    refine h.of_event (by rw [ht, State_abort_trace]) (fun hb => ?_) fun _ => ?_
    · obtain ⟨hi, rfl⟩ := hfirst.mp hb
      obtain ⟨-, hm⟩ | ⟨hx, -⟩ := hp
      · exact modeEnter_opens hst hm hi _
      · cases hx
    · exact beforeEvents_ready (ht ▸ State_abort_seq _ _)
  | writes _ r _ hp _ _ _ hw ht =>
    subst hp
    exact h.of_event (by rw [ht]) (by simp [hfirst]) (by simp [Event.failed, hw])
  | writeFails _ r _ _ hp _ _ _ _ ht =>
    subst hp
    exact h.of_event (by rw [ht, State_abort_trace]) (by simp [hfirst])
      fun _ => beforeEvents_ready (ht ▸ State_abort_seq _ _)
  | completes _ _ hp _ _ _ ht =>
    subst hp
    exact h.of_event (by rw [ht, State_complete_trace]) (by simp [hfirst]) (by simp [Event.failed])
  | holds _ _ hp _ ht | exits _ _ _ hp _ _ _ ht | delays _ _ hp _ _ ht =>
    subst hp
    exact h.of_event (by rw [ht]) (by simp [hfirst]) (by simp [Event.failed])

/-- Settles O56: only a phase logs an event, and acceptance, an abort and block reset leave the machine before an
operation's events. -/
theorem failureAlwaysEndsItsOperation : Obligations.FailureAlwaysEndsItsOperation := by
  apply step_keeps FailureEndsOperation
  case accepts =>
    intro s op a _ h _
    refine h.of_sameTrace rfl fun _ => ?_
    rw [State_accept_seq, prog_first]
    rfl
  case reserved =>
    exact fun _ _ h => h.of_sameTrace (State_abort_trace _ _) fun _ => beforeEvents_ready (State_abort_seq _ _)
  case phases => exact fun _ _ _ _ _ _ _ hs hst he h => he.failureEndsOperation hs hst h
  case resets => exact fun _ h => h.of_sameTrace rfl fun _ => rfl
  case frames => exact fun _ _ _ h => h
  case moves | offers | ports => exact fun _ _ h => h

end Sys2Proof.Machine
end

section
namespace Sys2Proof.Machine

/-! What an abort writes, and what it leaves alone (60_exceptions R205). -/

/-- Only a reserved word fails outside a bracket (60_exceptions R200). -/
theorem inBracket_iff {f : Failure} : f.inBracket = true ↔ f ≠ .illegalOp := by
  cases f <;> simp [Failure.inBracket]

/-- An abort on a reserved word leaves the physical mode alone (60_exceptions R205). -/
theorem abort_illegalOp_link (s : State) : (s.abort .illegalOp).link = s.link := by rw [abort_illegalOp]

/-- An abort on a reserved word draws what leaving its operation draws. -/
theorem abort_illegalOp_draws (s : State) : (s.abort .illegalOp).draws = s.leaveOperation.draws := by
  rw [abort_illegalOp]

/-- An abort touches seq, STATUS, ERRCODE, LINK_MODE, the physical mode, WROW, the races and the counter only. -/
theorem abort_eq (f : Failure) (s : State) :
    s.abort f = { s with
      seq := .ready
      status := (s.abort f).status
      errcode := (s.abort f).errcode
      linkMode := (s.abort f).linkMode
      link := (s.abort f).link
      wrow := (s.abort f).wrow
      raced := (s.abort f).raced
      draws := (s.abort f).draws } := by
  by_cases hf : f.inBracket = true
  · rw [abort_inBracket hf]
  · obtain rfl : f = .illegalOp := by simpa [inBracket_iff] using hf
    rw [abort_illegalOp]

/-- Leaving a BLIT leaves 64 free bytes in WROW. -/
theorem leaveOperation_wrow_blit {s : State} (h : s.seq.isBlit = true) : s.leaveOperation.wrow = freeRow s.draws := by
  cases hs : s.seq with
  | ready => simp [hs, Position.isBlit] at h
  | run op =>
    cases op <;> simp [hs, Position.isBlit] at h
    simp [State.leaveOperation, hs]

/-- Settles O38: field by field; LINK_MODE by whether the failure is in a bracket. -/
theorem abortWritesItsResult : Obligations.AbortWritesItsResult := by
  intro s c
  have hstatus {f : Failure} {r : BitVec 4} (hr : f.result = r) : (s.abort f).status = statusOf false r :=
    hr ▸ State_abort_status f s
  refine ⟨hstatus (r := 0x2#4) rfl, State_abort_errcode .writeFailed s, hstatus (r := 0x3#4) rfl,
    State_abort_errcode (.transport c) s, hstatus (r := 0x4#4) rfl, State_abort_errcode (.mode c) s,
    hstatus (r := 0x5#4) rfl, State_abort_errcode .illegalOp s, State_abort_linkMode .illegalOp s,
    abort_illegalOp_link s, fun f => ?_⟩
  refine ⟨State_abort_seq f s, State_abort_trace f s, State_abort_wire f s, State_abort_frame f s,
    State_abort_offers f s, State_abort_modeAnswers f s, State_abort_txAnswers f s, State_abort_packOut f s,
    fun hf => ?_⟩
  rw [State_abort_linkMode, if_pos (inBracket_iff.mpr hf), clearValid]

/-- Settles O39: an abort's update, and what leaving a BLIT or another operation does to WROW and the races. -/
theorem abortLeavesTheRestAlone : Obligations.AbortLeavesTheRestAlone := by
  rintro s t f rfl
  refine ⟨abort_eq f s, fun hb => ?_, fun hb => ?_⟩
  · rw [State_abort_wrow, State_abort_raced, leaveOperation_notBlit hb]
    refine ⟨rfl, rfl, ?_⟩
    rintro rfl
    rw [abort_illegalOp_link, abort_illegalOp_draws, leaveOperation_notBlit hb]
    exact ⟨rfl, rfl⟩
  · rw [State_abort_wrow, State_abort_raced, leaveOperation_wrow_blit hb]
    exact ⟨freeRow_length _, leaveOperation_raced s (.inr hb)⟩

end Sys2Proof.Machine
end

section
namespace Sys2Proof.Machine

/-! Writes (70_reset R239): what stands before a TxWrite in the trace. -/

/-- What a BODY writes is a whole buffer of its bracket's mode: a command sequence, or the packed row that WROW holds
(20_memory R55). -/
theorem buffer_whole {s : State} {op : Op} {a : Bool} {i : Nat} {st : SeqStep} {m : Mode}
    (hs : s.seq = .run op a i .body) (hst : (prog op a)[i]? = some st) (hm : st.mode? = some m)
    (hk : ∀ m p, st ≠ .hold m p) (hw : WrowHoldsRow s) :
    WholeBuffer s.params.wireOpc (linkModeOf m) (st.buffer s) := by
  obtain ⟨-, rfl, -⟩ | ⟨rfl, cmds, hc, rfl⟩ | ⟨rfl, r, -, rfl, -⟩ := mode?_cases hst hm
  · exact absurd rfl (hk _ _)
  · exact .inl ⟨rfl, cmds, hc, rfl⟩
  · obtain ⟨-, hrow⟩ := hw
    refine .inr ⟨rfl, hrow ?_⟩
    rw [hs, rowPacked_iff]
    exact ⟨⟨r, hst⟩, by decide⟩

/-- With no event more, a machine outside a BODY keeps the rule of its writes. -/
theorem WritesFollowTheirMode.of_sameTrace {s t : State} (h : WritesFollowTheirMode s) (hp : t.params = s.params)
    (htr : t.trace = s.trace) (hb : t.seq.bodyMode = none) : WritesFollowTheirMode t := by
  obtain ⟨hwrites, -⟩ := h
  rw [WritesFollowTheirMode, hp, htr, hb]
  exact ⟨hwrites, nofun⟩

/-- One event more has to be a write of a whole buffer right after its ModeEnter, or no write; and where a BODY is next,
it has to be that BODY's ModeEnter. -/
theorem WritesFollowTheirMode.of_event {s t : State} {e : Event} (h : WritesFollowTheirMode s)
    (hp : t.params = s.params) (htr : t.trace = s.trace ++ [e])
    (hwrite : ∀ bs r, e = .txWrite bs r →
      ∃ pre m, s.trace = pre ++ [.modeEnter m .ok] ∧ WholeBuffer s.params.wireOpc (linkModeOf m) bs)
    (hbody : ∀ m, t.seq.bodyMode = some m → e = .modeEnter m .ok) : WritesFollowTheirMode t := by
  obtain ⟨hwrites, -⟩ := h
  rw [WritesFollowTheirMode, hp, htr]
  constructor
  · intro pre bs r post heq
    obtain rfl | ⟨post', g, rfl⟩ := post.eq_nil_or_concat
    · obtain ⟨rfl, he⟩ := List.append_inj' heq rfl
      cases he
      exact hwrite bs r rfl
    · have hsplit : s.trace ++ [e] = (pre ++ .txWrite bs r :: post') ++ [g] := by simpa using heq
      obtain ⟨hpre, -⟩ := List.append_inj' hsplit rfl
      exact hwrites pre bs r post' hpre
  · intro m hm
    rw [hbody m hm]
    exact ⟨s.trace, rfl⟩

/-- An event that is no write, logged by a phase that leads outside a BODY. -/
theorem WritesFollowTheirMode.of_nonWrite {s t : State} {e : Event} (h : WritesFollowTheirMode s)
    (hp : t.params = s.params) (htr : t.trace = s.trace ++ [e]) (he : ∀ bs r, e ≠ .txWrite bs r)
    (hb : t.seq.bodyMode = none) : WritesFollowTheirMode t :=
  h.of_event hp htr (fun bs r heq => absurd heq (he bs r)) (by simp [hb])

/-- A BODY's write, whatever its answer, finds its ModeEnter last in the trace. -/
theorem WritesFollowTheirMode.of_write {s t : State} {op : Op} {a : Bool} {i : Nat} {st : SeqStep} {m : Mode}
    {r : TxAnswer} (h : WritesFollowTheirMode s) (hw : WrowHoldsRow s) (hs : s.seq = .run op a i .body)
    (hst : (prog op a)[i]? = some st) (hm : st.mode? = some m) (hk : ∀ m p, st ≠ .hold m p)
    (hp : t.params = s.params) (htr : t.trace = s.trace ++ [.txWrite (st.buffer s) r])
    (hb : t.seq.bodyMode = none) : WritesFollowTheirMode t := by
  have ⟨_, hbody⟩ := h
  obtain ⟨pre, hpre⟩ := hbody m (by simp [hs, Position.bodyMode, hst, hm])
  refine h.of_event hp htr (fun bs r' heq => ?_) (by simp [hb])
  cases heq
  exact ⟨pre, m, hpre, buffer_whole hs hst hm hk hw⟩

theorem bodyMode_ready {s : State} (hs : s.seq = .ready) : s.seq.bodyMode = none := by
  rw [hs]
  rfl

/-- No step starts at its BODY (42_display R151). -/
theorem bodyMode_firstPhase (op : Op) (a : Bool) (i : Nat) (st : SeqStep) :
    (Position.run op a i st.firstPhase).bodyMode = none := by
  cases st <;> rfl

/-- A phase logs a write only at a BODY, and leads to a BODY only from the ENTER that logs its ModeEnter. -/
theorem PhaseEffect.writesFollowTheirMode {op : Op} {a : Bool} {i : Nat} {ph : Phase} {st : SeqStep} {s t : State}
    (he : PhaseEffect op a i ph st s t) (hs : s.seq = .run op a i ph) (hst : (prog op a)[i]? = some st)
    (hw : WrowHoldsRow s) (h : WritesFollowTheirMode s) : WritesFollowTheirMode t := by
  have hp : t.params = s.params := (he.outcome hs).surroundings.params
  cases he with
  | waits ht => exact ht ▸ h
  | packs _ _ _ ht => exact h.of_sameTrace hp (by rw [ht]) (by rw [ht]; rfl)
  | enters m _ _ hm _ ht =>
    refine h.of_event hp (e := .modeEnter m .ok) (by rw [ht]) (by simp) fun m' hm' => ?_
    obtain rfl : m = m' := by simpa [ht, Position.bodyMode, hst, hm] using hm'
    rfl
  | modeFails m c _ _ _ ht =>
    exact h.of_nonWrite (e := .modeEnter m (.err c)) hp (by rw [ht, State_abort_trace]) (by simp)
      (bodyMode_ready (ht ▸ State_abort_seq _ _))
  | writes _ _ _ hph hm hk _ _ ht =>
    subst hph
    exact h.of_write hw hs hst hm hk hp (by rw [ht]) (by rw [ht]; rfl)
  | writeFails _ _ _ _ hph hm hk _ _ ht =>
    subst hph
    exact h.of_write hw hs hst hm hk hp (by rw [ht, State_abort_trace]) (bodyMode_ready (ht ▸ State_abort_seq _ _))
  | holds _ p _ _ ht => exact h.of_nonWrite (e := .delay p) hp (by rw [ht]) (by simp) (by rw [ht]; rfl)
  | exits _ _ st' _ _ _ _ ht =>
    exact h.of_nonWrite (e := .modeEnter .idle .ok) hp (by rw [ht]) (by simp)
      (by rw [ht]; exact bodyMode_firstPhase op a (i + 1) st')
  | completes _ _ _ _ _ _ ht =>
    exact h.of_nonWrite (e := .modeEnter .idle .ok) hp (by rw [ht, State_complete_trace]) (by simp)
      (bodyMode_ready (ht ▸ State_complete_seq _))
  | delays p st' _ _ _ ht =>
    exact h.of_nonWrite (e := .delay p) hp (by rw [ht]) (by simp)
      (by rw [ht]; exact bodyMode_firstPhase op a (i + 1) st')

/-- A step keeps the rule of writes, where WROW holds the row that a ROW's BODY writes. -/
theorem step_wrow_writes : ∀ s t : State, WrowHoldsRow s ∧ WritesFollowTheirMode s → step s = .next t →
    WrowHoldsRow t ∧ WritesFollowTheirMode t := by
  apply step_keeps (fun s => WrowHoldsRow s ∧ WritesFollowTheirMode s)
  case accepts =>
    exact fun s op a _ ⟨hw, h⟩ _ => ⟨wrowHoldsRow_accept op a hw.1, h.of_sameTrace rfl rfl (by cases op <;> rfl)⟩
  case reserved =>
    exact fun s _ ⟨hw, h⟩ => ⟨wrowHoldsRow_abort .illegalOp hw.1,
      h.of_sameTrace (State_abort_params _ _) (State_abort_trace _ _) (bodyMode_ready (State_abort_seq _ _))⟩
  case phases =>
    exact fun _ _ _ _ _ _ _ hs hst he ⟨hw, h⟩ => ⟨he.wrowHoldsRow hs hw, he.writesFollowTheirMode hs hst hw h⟩
  case resets =>
    exact fun s ⟨_, h⟩ => ⟨wrowHoldsRow_of_length (freeRow_length s.draws) rfl, h.of_sameTrace rfl rfl rfl⟩
  case frames => exact fun _ _ _ h => h
  case moves | offers | ports => exact fun _ _ h => h

/-- Settles O55: with WROW's invariant, move by move. -/
theorem writesAlwaysFollowTheirMode : Obligations.WritesAlwaysFollowTheirMode :=
  fun s t hw hf h => (step_wrow_writes s t ⟨hw, hf⟩ h).2

end Sys2Proof.Machine
end

section
namespace Sys2Proof.Machine

/-! Block reset (70_reset R230 to R232) and the state it leaves. -/

/-- A block reset is answered in every state. -/
theorem step_blockReset {s : State} {hs : List HostMove} (h : s.host = .blockReset :: hs) :
    step s = .next (State.blockReset s.outstandingWrite { s with host := hs }) := by
  simp only [step, State.turn, h]

/-- Settles O19: field by field; the physical mode and the wire of an idle machine by their cases, and any machine's
wire by what a step can put on it. -/
theorem blockResetLeavesTheRestAlone : Obligations.BlockResetLeavesTheRestAlone := by
  intro s t hs hh h
  have hwire := step_wire_cases h
  rw [step_blockReset hh] at h
  injection h with h
  subst h
  refine ⟨rfl, rfl, rfl, rfl, rfl, rfl, rfl, rfl, fun hr => ⟨?_, ?_⟩, hwire⟩
  · rw [State_blockReset_link, if_pos hr]
  · rw [State_blockReset_wire, if_neg fun hbusy => hbusy.1 hr]

/-- Settles O18: the step, and the values it writes. -/
theorem blockResetEndsTheOperationWithoutEvent : Obligations.BlockResetEndsTheOperationWithoutEvent :=
  fun _ _ h => ⟨_, step_blockReset h, rfl, rfl, rfl, rfl, rfl, rfl⟩

/-- Settles O17: the values are closed, and a machine at READY with no word offered waits. -/
theorem resetLeavesTheStatedValues : Obligations.ResetLeavesTheStatedValues :=
  ⟨rfl, rfl, rfl, rfl, rfl, rfl, rfl, step_blockNext_idle (.inl ⟨rfl, rfl⟩) rfl rfl⟩

/-- A trace without events meets every rule about the writes in it. -/
theorem writesFollowTheirMode_of_noEvent {s : State} (htr : s.trace = []) (hb : s.seq.bodyMode = none) :
    WritesFollowTheirMode s := by
  rw [WritesFollowTheirMode, htr, hb]
  exact ⟨by simp, nofun⟩

/-- A trace without events meets every rule about the failures in it. -/
theorem failureEndsOperation_of_noEvent {s : State} (htr : s.trace = []) : FailureEndsOperation s := by
  rw [FailureEndsOperation, htr]
  exact ⟨by simp, by simp⟩

/-- Settles O47: reset is READY with VALID 0 and RESULT NONE, nothing has happened, and nothing is to come. -/
theorem resetMeetsTheInvariants : Obligations.ResetMeetsTheInvariants :=
  ⟨seqIsPosition_ready rfl, statusFollowsSeq_ready (r := resultNone) rfl rfl (by decide), errcodeFollowsResult_zero rfl,
    linkModeTrue_of_invalid rfl (by decide) rfl, wrowHoldsRow_of_length rfl rfl, ⟨[], rfl, nofun⟩,
    writesFollowTheirMode_of_noEvent rfl rfl, failureEndsOperation_of_noEvent rfl, .inl rfl, rfl, reset_frame_wf,
    exitsFollowBodies_ready rfl, nofun, nofun, nofun⟩

end Sys2Proof.Machine
end

section
namespace Sys2Proof.Machine

/-! The race for a frame byte (70_reset R236). -/

/-- The overwritten values of an address are the races' cells there. -/
theorem mem_oldBytes {s : State} {a : BitVec 10} {v : Byte} : v ∈ s.oldBytes a ↔ (a.toNat, v) ∈ s.raced := by
  simp [State.oldBytes]

/-- A FrameRead of a byte with no overwritten value is the frame's (20_memory R51). -/
theorem frameRead_notRaced {s : State} {a : BitVec 10} (h : s.oldBytes a = []) (k : Nat) :
    s.frameRead k a = Memory.read s.frame a.toNat := by
  simp only [State.frameRead, h]

/-- A FrameRead returns the new value or an overwritten one, whatever is drawn (log entry 12). -/
theorem frameRead_mem (s : State) (k : Nat) (a : BitVec 10) :
    s.frameRead k a ∈ Memory.read s.frame a.toNat :: s.oldBytes a := by
  unfold State.frameRead
  split
  · exact List.mem_cons_self
  next b bs hold =>
    have hlt : Config.freeChoice k % (bs.length + 2) < (Memory.read s.frame a.toNat :: b :: bs).length :=
      Nat.mod_lt _ (by omega)
    rw [hold, List.getD_eq_getElem?_getD, List.getElem?_eq_getElem hlt]
    exact List.getElem_mem hlt

/-- The new value is the frame's, an overwritten one is in the races. -/
theorem frameRead_cases (s : State) (k : Nat) (a : BitVec 10) :
    s.frameRead k a = Memory.read s.frame a.toNat ∨ (a.toNat, s.frameRead k a) ∈ s.raced :=
  (List.mem_cons.mp (frameRead_mem s k a)).imp_right mem_oldBytes.mp

theorem step_frameWrite {s : State} {a : BitVec 10} {b : Byte} {hs : List HostMove}
    (h : s.host = .frameWrite a b :: hs) : step s = .next (State.hostFrameWrite a b { s with host := hs }) := by
  simp only [step, State.turn, h]

/-- Bytes 4c to 4c + 3 of a packed row are byte c packed (41_pixel_packer R131). -/
theorem packRow_column {row : List Byte} {c : Nat} (hc : c < row.length) :
    ((packRow row).drop (4 * c)).take 4 = packPixelByte row[c] := by
  induction row generalizing c with
  | nil => cases hc
  | cons b row ih =>
    rw [packRow_cons]
    cases c with
    | zero => exact List.take_left' (packPixelByte_length b)
    | succ c =>
      rw [show 4 * (c + 1) = (packPixelByte b).length + 4 * c by rw [packPixelByte_length]; omega,
        List.drop_length_add_append]
      exact ih (Nat.lt_of_succ_lt_succ hc)

/-- Settles O32: a FrameRead's two kinds of values; and PACK packs the one it reads in each column. -/
theorem racedFrameReadReturnsOldOrNew : Obligations.RacedFrameReadReturnsOldOrNew := by
  refine ⟨fun s k a => ⟨fun hnone => frameRead_notRaced ?_ k, frameRead_cases s k a⟩, fun s a b hs h => ?_,
    fun s a r c hr hc hs => ?_⟩
  · exact List.eq_nil_iff_forall_not_mem.mpr fun v hv => hnone v (mem_oldBytes.mp hv)
  · exact step_frameWrite h
  · have hlen : c < (s.frameRow r).length := by rwa [frameRow_length]
    have hread := frameRead_cases s (s.draws + c) (frameAddr r c)
    rw [frameAddr_toNat hr hc] at hread
    refine ⟨_, _, exec_blit_pack hr hs rfl, packRow_column hlen, ?_⟩
    simpa only [State.frameRow, List.getElem_map, List.getElem_range] using hread

end Sys2Proof.Machine
end

section
namespace Sys2Proof.Machine

/-! Requests without an answer, and the phases an operation has left (70_reset R247). -/

/-- A ModeEnter that is not answered changes nothing (log entry 3). -/
theorem modeEnter_unanswered {s : State} (h : s.modeAnswers = []) (m : Mode) (k : State → State) :
    s.modeEnter m k = s := by
  simp only [State.modeEnter, h]

/-- A write that is not answered changes nothing (log entry 3). -/
theorem writeChecked_unanswered {s : State} (h : s.txAnswers = []) (bs : List Byte) (k : State → State) :
    s.writeChecked bs k = s := by
  simp only [State.writeChecked, h]

section
variable {s u : State} {op : Op} {a : Bool} {i : Nat} {ph : Phase} {st : SeqStep} {m : Mode}

/-- At ENTER and EXIT the block waits for the mode-pin driver. -/
theorem exec_mode_unanswered (hs : s.seq = .run op a i ph) (hst : (prog op a)[i]? = some st)
    (hp : ph = .enter ∨ ph = .exit) (hm : st.mode? = some m) (hq : s.modeAnswers = []) :
    exec (op.instr a) s = .next s := by
  obtain rfl | rfl := hp
  · rw [exec_enter hs hst hm, modeEnter_unanswered hq]
  · rw [exec_exit hs hst hm, modeEnter_unanswered hq]

/-- At a BODY that writes the block waits for the transport. -/
theorem exec_write_unanswered (hs : s.seq = .run op a i .body) (hst : (prog op a)[i]? = some st)
    (hm : st.mode? = some m) (hk : ∀ m p, st ≠ .hold m p) (hx : s.txAnswers = []) :
    exec (op.instr a) s = .next s := by
  rw [exec_write hs hst hm hk, writeChecked_unanswered hx]

end

theorem blockNext_modeAnswers {s u : State} (h : BlockNext s u) : u.modeAnswers = s.modeAnswers := by
  rw [blockNext_eq h]

theorem blockNext_txAnswers {s u : State} (h : BlockNext s u) : u.txAnswers = s.txAnswers := by
  rw [blockNext_eq h]

/-- Settles O33: the instruction waits, in the state itself and in the one the block moves from. -/
theorem unansweredRequestWaits : Obligations.UnansweredRequestWaits := by
  intro s u op a i ph st hb hs hst
  have hu : u.seq = .run op a i ph := (blockNext_seq hb).trans hs
  rw [step_blockNext_inFlight hb hu]
  constructor
  · rintro ⟨hp, hm, hq⟩
    obtain ⟨m, hm⟩ := Option.ne_none_iff_exists'.mp hm
    exact ⟨exec_mode_unanswered hs hst hp hm hq,
      exec_mode_unanswered hu hst hp hm ((blockNext_modeAnswers hb).trans hq)⟩
  · rintro ⟨rfl, hwrites, hx⟩
    have hux : u.txAnswers = [] := (blockNext_txAnswers hb).trans hx
    obtain ⟨m, cmds, rfl⟩ | ⟨r, rfl⟩ := hwrites
    · exact ⟨exec_write_unanswered hs hst rfl (by simp) hx, exec_write_unanswered hu hst rfl (by simp) hux⟩
    · exact ⟨exec_write_unanswered hs hst rfl (by simp) hx, exec_write_unanswered hu hst rfl (by simp) hux⟩

/-- The phases that the steps of a list have. -/
def phaseCount (l : List SeqStep) : Nat := (l.map (fun st => st.phases.length)).sum

/-- This step's phases from here on, and those of the steps after it. -/
theorem phasesLeft_run {op : Op} {a : Bool} {i : Nat} {st : SeqStep} (hst : (prog op a)[i]? = some st) (ph : Phase) :
    (Position.run op a i ph).phasesLeft = st.phasesFrom ph + phaseCount ((prog op a).drop (i + 1)) := by
  simp [Position.phasesLeft, phaseCount, hst]

/-- A step begins with all its phases left. -/
theorem phasesFrom_firstPhase (st : SeqStep) : st.phasesFrom st.firstPhase = st.phases.length := by
  cases st <;> rfl

/-- At the first phase of a step all the phases of the list from that step on are left. -/
theorem phasesLeft_firstPhase {op : Op} {a : Bool} {i : Nat} {st : SeqStep} (hst : (prog op a)[i]? = some st) :
    (Position.run op a i st.firstPhase).phasesLeft = phaseCount ((prog op a).drop i) := by
  obtain ⟨hi, hget⟩ := List.getElem?_eq_some_iff.mp hst
  rw [phasesLeft_run hst, phasesFrom_firstPhase, List.drop_eq_getElem_cons hi, hget]
  rfl

/-- The phases left in a bracket (40_mode R110). -/
theorem phasesFrom_bracket {st : SeqStep} {m : Mode} (hm : st.mode? = some m) :
    st.phasesFrom .enter = 3 ∧ st.phasesFrom .body = 2 ∧ st.phasesFrom .exit = 1 := by
  cases st with
  | tx | hold | row => exact ⟨rfl, rfl, rfl⟩
  | wait => cases hm

section
variable {s t : State} {op : Op} {a : Bool} {i n : Nat} {ph ph' : Phase} {st : SeqStep}

/-- The next phase of the same step is closer to the end. -/
theorem toPhase_phasesLeft_lt (hs : s.seq = .run op a i ph) (hst : (prog op a)[i]? = some st)
    (hlt : st.phasesFrom ph' < st.phasesFrom ph) :
    (s.toPhase ph').seq.phasesLeft < (Position.run op a i ph).phasesLeft := by
  rw [toPhase_run ph' hs, phasesLeft_run hst, phasesLeft_run hst]
  omega

/-- The next step of the list, or the end, is closer to the end than any phase of this step. -/
theorem stepDone_phasesLeft_lt (hs : s.seq = .run op a i ph) (hst : (prog op a)[i]? = some st)
    (hpos : 0 < st.phasesFrom ph) : s.stepDone.seq.phasesLeft < (Position.run op a i ph).phasesLeft := by
  rw [phasesLeft_run hst]
  obtain ⟨st', hn, e⟩ | ⟨-, e⟩ := stepDone_cases hs <;> rw [e]
  · dsimp only
    rw [phasesLeft_firstPhase hn]
    omega
  · rw [State_complete_seq, Position.phasesLeft]
    omega

/-- An answered ModeEnter goes on, or aborts to READY, where no phase is left. -/
theorem modeEnter_phasesLeft_lt {m : Mode} {k : State → State} (hq : s.modeAnswers ≠ []) (hn : 0 < n)
    (hk : ∀ u : State, u.seq = s.seq → (k u).seq.phasesLeft < n) : (s.modeEnter m k).seq.phasesLeft < n := by
  obtain ⟨hnone, -⟩ | ⟨_, -, e⟩ | ⟨_, _, -, e⟩ := modeEnter_cases m k s
  · exact absurd hnone hq
  · rw [e]
    exact hk _ rfl
  · rwa [e, State_abort_seq]

/-- An answered write goes on, or aborts to READY, where no phase is left. -/
theorem writeChecked_phasesLeft_lt {bs : List Byte} {k : State → State} (hx : s.txAnswers ≠ []) (hn : 0 < n)
    (hk : ∀ u : State, u.seq = s.seq → (k u).seq.phasesLeft < n) : (s.writeChecked bs k).seq.phasesLeft < n := by
  obtain ⟨hnone, -⟩ | ⟨_, _, -, -, e⟩ | ⟨_, _, _, -, -, e⟩ := writeChecked_cases bs k s
  · exact absurd hnone hx
  · rw [e]
    exact hk _ rfl
  · rwa [e, State_abort_seq]

/-- A phase whose request, if it makes one, is answered brings the operation closer to its end. -/
theorem phaseOf_phasesLeft_lt (hs : s.seq = .run op a i ph) (hst : (prog op a)[i]? = some st) (ha : Answered s)
    (h : s.phaseOf st ph = .next t) : t.seq.phasesLeft < s.seq.phasesLeft := by
  rw [Answered, hs] at ha
  rw [hs]
  cases phaseOf_cases h with
  | enter m hm hp ht =>
    subst hp ht
    obtain ⟨henter, hbody, -⟩ := phasesFrom_bracket hm
    refine modeEnter_phasesLeft_lt ha (by rw [phasesLeft_run hst]; omega) fun u hu => ?_
    exact toPhase_phasesLeft_lt (hu.trans hs) hst (by omega)
  | write m hm hp hk ht =>
    subst hp ht
    obtain ⟨-, hbody, hexit⟩ := phasesFrom_bracket hm
    have hx : s.txAnswers ≠ [] := ha fun m' p hold => hk m' p (Option.some.inj (hst.symm.trans hold))
    refine writeChecked_phasesLeft_lt hx (by rw [phasesLeft_run hst]; omega) fun u hu => ?_
    exact toPhase_phasesLeft_lt (hu.trans hs) hst (by omega)
  | hold m p hkind hp ht =>
    subst hkind hp ht
    exact toPhase_phasesLeft_lt (s := s.log (.delay p)) hs hst (by simp [SeqStep.phasesFrom, SeqStep.phases])
  | exit m hm hp ht =>
    subst hp ht
    obtain ⟨-, -, hexit⟩ := phasesFrom_bracket hm
    refine modeEnter_phasesLeft_lt ha (by rw [phasesLeft_run hst]; omega) fun u hu => ?_
    exact stepDone_phasesLeft_lt (hu.trans hs) hst (by omega)
  | wait p hkind hp ht =>
    subst hkind hp ht
    exact stepDone_phasesLeft_lt (s := s.log (.delay p)) hs hst (by simp [SeqStep.phasesFrom, SeqStep.phases])
  | pack r hkind hp ht =>
    subst hkind hp ht
    rw [State_packPhase_seq]
    exact toPhase_phasesLeft_lt hs hst (by simp [SeqStep.phasesFrom, SeqStep.phases])

end

/-- The block's next move finds the same requests answered. -/
theorem Answered.blockNext {s u : State} (h : Answered s) (hb : BlockNext s u) : Answered u := by
  rw [blockNext_eq hb]
  exact h

/-- BLIT begins with its preamble's three phases and four for each of the 64 rows (42_display R150). -/
theorem phasesLeft_blit (a : Bool) : Position.phasesLeft (.run .blit a 0 .enter) = 259 := by
  have hrows : phaseCount ((List.range 64).map SeqStep.row) = 64 * 4 := by
    rw [phaseCount, List.map_map]
    change ((List.range 64).map (fun _ => 4)).sum = 64 * 4
    rw [List.map_const', List.length_range, List.sum_replicate_nat]
  exact (phasesLeft_run (op := .blit) (a := a) (i := 0) rfl .enter).trans (congrArg (3 + ·) hrows)

/-- Settles O60: the block's move is a phase of the operation in flight, which is answered; the other step lists are
short enough to count. -/
theorem answeredOperationsEnd : Obligations.AnsweredOperationsEnd := by
  refine ⟨fun s u hp hr hb ha => ?_, fun a => ⟨rfl, rfl, rfl, rfl, phasesLeft_blit a⟩⟩
  rw [SeqIsPosition] at hp
  rw [← blockNext_seq hb] at hp hr ⊢
  cases hu : u.seq with
  | ready => exact absurd hu hr
  | run op a i ph =>
    obtain ⟨-, st, hst, hph⟩ := legal_run_iff.mp (hu ▸ hp)
    obtain ⟨t, ht⟩ := phaseOf_answers hph u
    refine ⟨t, ?_, hu ▸ phaseOf_phasesLeft_lt hu hst (ha.blockNext hb) ht⟩
    rw [step_blockNext_inFlight hb hu, exec_inFlight hu, State.runPhase, hst]
    exact ht

end Sys2Proof.Machine
end
